-- ==== Sys2Proof/Word.lean ====
section
/-! DEFINITION. The byte: the one unit every interface of the block carries (00_scope R9, R10). -/

namespace Sys2Proof

/-- A byte, 0..255; bit 7 is its most significant bit (R10). -/
abbrev Byte := BitVec 8

end Sys2Proof
end

