-- ==== Sys2Proof/Config.lean ====
section
/-! DEFINITION. The constants the spec fixes (00_scope R6-R8), and as opaque constants what it leaves open: the parameters of
R9 and the symbols the byte source delivers (20_memory R37). Nothing in Lean can evaluate an opaque constant. -/

namespace Sys2Proof

/-- `SOF`, the frame-start marker (R6). -/
def SOF : Byte := 0x68

/-- `END`, the frame-end marker (R6). -/
def END : Byte := 0x16

/-- `WAKE`, the wake-up byte (R6). -/
def WAKE : Byte := 0xfe

/-- `BIAS`, added to every data byte on the wire (R6). -/
def BIAS : Byte := 0x33

/-- The byte of which the broadcast address `BCAST` has six (R6). -/
def BCAST_BYTE : Byte := 0xaa

/-- `WAKE_COUNT`, the length of the writer's preamble (R7). -/
def WAKE_COUNT : Nat := 4

/-- `N_MAX`, the largest data length (R9). -/
def N_MAX : Nat := 255

/-- `FRAME_MIN`, the length of the shortest frame DUMP produces (R9). -/
def FRAME_MIN : Nat := 12

/-- `FRAME_MAX`, the length of the longest frame DUMP produces (R9). -/
def FRAME_MAX : Nat := 267

/-- `DISCOVERY`, the static discovery request (R8). -/
def DISCOVERY : List Byte :=
  [0xfe, 0xfe, 0xfe, 0xfe, 0x68, 0xaa, 0xaa, 0xaa, 0xaa, 0xaa, 0xaa, 0x68, 0x13, 0x00, 0xdf, 0x16]

/-- The two protocol versions (30_encoding R63). -/
inductive Version where
  | a
  | b
  deriving DecidableEq, Repr, Inhabited

/-- One symbol of the byte source (20_memory R37): a byte, or `None`, "no byte available". -/
inductive Symbol where
  | byte (b : Byte)
  | noByte
  deriving DecidableEq, Repr, Inhabited

/-- The function names of the two versions' tables (30_encoding R64). -/
inductive FuncName where
  | readData | readAddress | readMore | readAgain | writeData | broadcastTime | writeAddress
  | setSpeed | setPassword | resetPower | resetDemand
  deriving DecidableEq, Repr, Inhabited

/-- OPEN: `NCTX - 1` (R9, D3: `NCTX` is at least 1). -/
opaque Config.nctxLessOne : Nat

/-- `NCTX`, the number of frame contexts of the machine at reset (R9). -/
def Config.nctx : Nat := Config.nctxLessOne + 1

/-- OPEN: how much a finite reader's buffer holds past 267 bytes, or `none` for an unbounded one (R9, D10). -/
opaque Config.rxBufSpare : Option Nat

/-- `RXBUF_MAX` of the machine at reset: `none` or a number at least 267 (R9). -/
def Config.rxBufMax : Option Nat := Config.rxBufSpare.map (· + FRAME_MAX)

/-- OPEN: `CTRL_DEFAULT`, the control byte of a fresh frame (R9, D6). -/
opaque Config.ctrlDefault : Byte

/-- OPEN: an order of the 32 codes for each version; it fixes the function codes the source gives no number for
(30_encoding R64, D20). A permutation, so that distinct names can only get distinct codes. -/
opaque Config.codeOrder : Version → Equiv.Perm (BitVec 5)

/-- FREE VALUE: symbol number n of the byte source, for the symbols no `State.source` announces (20_memory R37:
the environment chooses them freely). -/
opaque Config.rxSymbol : Nat → Symbol

end Sys2Proof
end

