-- ==== Sys2Proof/Syntax.lean ====
section
/-! DEFINITION. The operand types (30_encoding R67), the command as the host hands it over (R65, R67), the operations, one
constructor per row of spec/opcode_table.json (R66), and what their outcomes carry. -/

namespace Sys2Proof

/-- A sequence of exactly six bytes: a station address in display order or on the wire (10_state R14, 40 R80, R81). -/
structure Addr where
  b0 : Byte
  b1 : Byte
  b2 : Byte
  b3 : Byte
  b4 : Byte
  b5 : Byte
  deriving DecidableEq, Repr, Inhabited

/-- The value of a frame's control, "a value with four fields" (10_state R15). -/
structure Control where
  dir  : Bool
  resp : Bool
  more : Bool
  func : BitVec 5
  deriving DecidableEq, Repr, Inhabited

/-- One operand as the host hands it over, before its type is checked (R67, R72): a context index, a number (a bit, a
function field, a byte), a byte sequence, a quoted hex string, or the word `absent`. -/
inductive Operand where
  | ctx (f : Nat)
  | num (n : Nat)
  | bytes (s : List Byte)
  | hex (t : List Char)
  | absent
  deriving DecidableEq, Repr

/-- What the command port takes: the command byte and the operands beside it (R65, R67; 92 D2). -/
structure Command where
  byte : Byte
  operands : List Operand
  deriving DecidableEq, Repr

/-- The rows of the operation table (R66), by mnemonic. -/
inductive Mnemonic where
  | csum | csumchk | addrenc | addrdec | ctrlenc | ctrldec | dataenc | datadec | structchk
  | fnew | setaddr | clraddr | setctrl | setdata | clrdata | setpver | load | dump
  | read | write | reset
  deriving DecidableEq, Repr

/-- The operations with their operands (R66, R67). -/
inductive Instr where
  /-- CSUM s (40 R77) -/
  | csum (s : List Byte)
  /-- CSUMCHK buf (40 R78) -/
  | csumchk (buf : List Byte)
  /-- ADDRENC a, `none` for `absent` (40 R80) -/
  | addrenc (a : Option Addr)
  /-- ADDRDEC w (40 R81) -/
  | addrdec (w : Addr)
  /-- CTRLENC dir, resp, more, func (40 R83) -/
  | ctrlenc (dir resp more : Bool) (func : BitVec 5)
  /-- CTRLDEC c (40 R84) -/
  | ctrldec (c : Byte)
  /-- DATAENC d, `none` for `absent` (40 R85) -/
  | dataenc (d : Option (List Byte))
  /-- DATADEC w (40 R86) -/
  | datadec (w : List Byte)
  /-- STRUCTCHK buf (40 R79) -/
  | structchk (buf : List Byte)
  /-- FNEW f, V (41 R93) -/
  | fnew (f : Nat) (v : Version)
  /-- SETADDR f, a (41 R94) -/
  | setaddr (f : Nat) (a : Addr)
  /-- CLRADDR f (41 R95) -/
  | clraddr (f : Nat)
  /-- SETCTRL f, dir, resp, more, func (41 R96) -/
  | setctrl (f : Nat) (dir resp more : Bool) (func : BitVec 5)
  /-- SETDATA f, d (41 R97) -/
  | setdata (f : Nat) (d : List Byte)
  /-- CLRDATA f (41 R98) -/
  | clrdata (f : Nat)
  /-- SETPVER f, V (41 R99) -/
  | setpver (f : Nat) (v : Version)
  /-- LOAD f, buf (41 R100) -/
  | load (f : Nat) (buf : List Byte)
  /-- DUMP f (41 R103) -/
  | dump (f : Nat)
  /-- READ f, V (42 R105) -/
  | read (f : Nat) (v : Version)
  /-- WRITE f, W, `true` for `wake` (42 R112) -/
  | write (f : Nat) (wake : Bool)
  /-- RESET (43 R115) -/
  | reset
  deriving DecidableEq, Repr

/-- Why a command is no operation at all (R67, R68; 93_implementation_defined U3-U7, U13). -/
inductive DecodeError where
  /-- the byte matches no row of R66 (R68, U13) -/
  | reservedCommand (c : Byte)
  /-- the operands are not those R67 lists for the operation -/
  | operandShape
  /-- a hex string of odd length or with a character that is no hexadecimal digit (40 R76, U3) -/
  | malformedHex
  /-- an address of other than six bytes (40 R80, U4) -/
  | addressLength
  /-- a number wider than its field (40 R83, U5) -/
  | fieldTooWide
  /-- a data operand longer than 255 bytes (40 R85, U6) -/
  | dataTooLong
  /-- a CSUMCHK operand of fewer than two bytes (40 R78, U7) -/
  | bufferTooShort
  deriving DecidableEq, Repr

/-- What a successful operation hands back (R67, column "result"). -/
inductive Value where
  | unit
  | byte (b : Byte)
  | bit (b : Bool)
  | bytes (s : List Byte)
  | ctrl (c : Control)
  deriving DecidableEq, Repr

/-- The error outcomes of LOAD and READ (60_exceptions R119-R124). -/
inductive OpError where
  /-- R119, carrying the offending buffer -/
  | structureError (buf : List Byte)
  /-- R120 -/
  | checksumError
  /-- R121 -/
  | timeoutError
  /-- R122, the spec's own -/
  | lengthFault
  /-- R123, the spec's own -/
  | overflowFault
  deriving DecidableEq, Repr

/-- The outcome of one operation (60_exceptions R118). -/
inductive Result where
  | ok (v : Value)
  | error (e : OpError)
  deriving DecidableEq, Repr

end Sys2Proof
end

