-- ==== Sys2Proof/Machine/Hex.lean ====
section
/-! DEFINITION. Hexadecimal strings as lists of characters: `Hex` and `Unhex` (40_field_codecs R75, R76). -/

namespace Sys2Proof

/-- The lowercase digit of a 4-bit value (R75). -/
def hexDigit (v : BitVec 4) : Char :=
  if v.toNat < 10 then Char.ofNat (48 + v.toNat) else Char.ofNat (87 + v.toNat)

/-- The value of a hexadecimal digit, upper- or lowercase; nothing for any other character (R76). -/
def hexValue (c : Char) : Option (BitVec 4) :=
  let n := c.toNat
  if 48 ≤ n && n ≤ 57 then some (BitVec.ofNat 4 (n - 48))
  else if 97 ≤ n && n ≤ 102 then some (BitVec.ofNat 4 (n - 87))
  else if 65 ≤ n && n ≤ 70 then some (BitVec.ofNat 4 (n - 55))
  else none

/-- `Hex(s)`: two digits a byte, high digit first, byte 0 first (R75). -/
def hex : List Byte → List Char
  | [] => []
  | b :: s => hexDigit (b.extractLsb' 4 4) :: hexDigit (b.extractLsb' 0 4) :: hex s

/-- `Unhex(t)`: nothing for a string of odd length or with a character that is no digit (R76, U3). -/
def unhex : List Char → Option (List Byte)
  | [] => some []
  | [_] => none
  | h :: l :: t =>
    match hexValue h, hexValue l, unhex t with
    | some x, some y, some s => some ((x ++ y : BitVec 8) :: s)
    | _, _, _ => none

/-- `lowercase(t)` on hexadecimal digits (R76). -/
def lowerDigit (c : Char) : Char :=
  if 65 ≤ c.toNat && c.toNat ≤ 70 then Char.ofNat (c.toNat + 32) else c

/-- Six bytes from a byte sequence of exactly six (40 R80, U4). -/
def Addr.ofBytes : List Byte → Option Addr
  | [b0, b1, b2, b3, b4, b5] => some ⟨b0, b1, b2, b3, b4, b5⟩
  | _ => none

/-- The six bytes in order. -/
def Addr.bytes (a : Addr) : List Byte := [a.b0, a.b1, a.b2, a.b3, a.b4, a.b5]

end Sys2Proof
end

