-- ==== Sys2Proof/WellFormed.lean ====
section
/-! DEFINITION. The operand bounds of 30_encoding R67 that Instr's types do not already enforce. -/

namespace Sys2Proof

/-- Data operands hold at most 255 bytes and a CSUMCHK operand at least two (R67; 40 R78, R85; 41 R97). -/
def Instr.wellFormed : Instr → Bool
  | .csumchk buf => decide (2 ≤ buf.length)
  | .dataenc (some d) => decide (d.length ≤ N_MAX)
  | .setdata _ d => decide (d.length ≤ N_MAX)
  | .dataenc none | .csum _ | .addrenc _ | .addrdec _ | .ctrlenc _ _ _ _ | .ctrldec _ | .datadec _ | .structchk _
  | .fnew _ _ | .setaddr _ _ | .clraddr _ | .setctrl _ _ _ _ _ | .clrdata _ | .setpver _ _ | .load _ _ | .dump _
  | .read _ _ | .write _ _ | .reset => true

/-- The context an operation names, if it names one (R67). -/
def Instr.context? : Instr → Option Nat
  | .fnew f _ | .setaddr f _ | .clraddr f | .setctrl f _ _ _ _ | .setdata f _ | .clrdata f | .setpver f _
  | .load f _ | .dump f | .read f _ | .write f _ => some f
  | .csum _ | .csumchk _ | .addrenc _ | .addrdec _ | .ctrlenc _ _ _ _ | .ctrldec _ | .dataenc _ | .datadec _
  | .structchk _ | .reset => none

/-- The context index is below `NCTX` (R67: `0 ≤ f < NCTX`). -/
def Instr.inContext (nctx : Nat) (i : Instr) : Bool :=
  match i.context? with
  | some f => decide (f < nctx)
  | none => true

/-- The operations of 40_field_codecs, functions of their operands alone. -/
def Instr.isCodec : Instr → Bool
  | .csum _ | .csumchk _ | .addrenc _ | .addrdec _ | .ctrlenc _ _ _ _ | .ctrldec _ | .dataenc _ | .datadec _
  | .structchk _ => true
  | .fnew _ _ | .setaddr _ _ | .clraddr _ | .setctrl _ _ _ _ _ | .setdata _ _ | .clrdata _ | .setpver _ _ | .load _ _
  | .dump _ | .read _ _ | .write _ _ | .reset => false

end Sys2Proof
end

