-- ==== Sys2Proof/Decode.lean ====
section
/-! DEFINITION. The command decoder, total on every command byte and operand list (30_encoding R65-R68, R74), the encoder
written from the same tables, and the decoder as the host asks for it. -/

namespace Sys2Proof

/-- One row of the operation table (R66): the byte c selects it when `c & mask = pattern`. -/
structure Row where
  op : Mnemonic
  pattern : Byte
  mask : Byte
  deriving DecidableEq, Repr

/-- The operation table (R66). -/
def opTable : List Row :=
  [⟨.csum, 0x00, 0xff⟩, ⟨.csumchk, 0x01, 0xff⟩, ⟨.addrenc, 0x02, 0xff⟩, ⟨.addrdec, 0x03, 0xff⟩,
   ⟨.ctrlenc, 0x04, 0xff⟩, ⟨.ctrldec, 0x05, 0xff⟩, ⟨.dataenc, 0x06, 0xff⟩, ⟨.datadec, 0x07, 0xff⟩,
   ⟨.structchk, 0x08, 0xff⟩, ⟨.fnew, 0x10, 0xbf⟩, ⟨.setaddr, 0x11, 0xff⟩, ⟨.clraddr, 0x12, 0xff⟩,
   ⟨.setctrl, 0x13, 0xff⟩, ⟨.setdata, 0x14, 0xff⟩, ⟨.clrdata, 0x15, 0xff⟩, ⟨.setpver, 0x16, 0xbf⟩,
   ⟨.load, 0x18, 0xff⟩, ⟨.dump, 0x19, 0xff⟩, ⟨.read, 0x1a, 0xbf⟩, ⟨.write, 0x1b, 0x7f⟩, ⟨.reset, 0x1f, 0xff⟩]

/-- The byte c selects the row (R66). -/
def Row.selects (r : Row) (c : Byte) : Bool := c &&& r.mask == r.pattern

/-- The operation a command byte selects; none for a reserved byte (R66, R68). -/
def decodeByte (c : Byte) : Option Mnemonic := (opTable.find? (·.selects c)).map (·.op)

/-- The version tag V, bit 6 of the command byte: 0 = A, 1 = B (R65). -/
def versionOfByte (c : Byte) : Version := if c.getLsbD 6 then .b else .a

/-- The wake-preamble flag W, bit 7 of the command byte (R65). -/
def wakeOfByte (c : Byte) : Bool := c.getLsbD 7

/-- A number as a value of `width` bits, refused when it is wider (40 R83, U5). -/
def fieldOperand (width n : Nat) : Except DecodeError (BitVec width) :=
  if n < 2 ^ width then .ok (BitVec.ofNat width n) else .error .fieldTooWide

/-- The four control fields `dir, resp, more, func` (R67). -/
def controlOperands (d r m f : Nat) : Except DecodeError Control := do
  let dir ← fieldOperand 1 d
  let resp ← fieldOperand 1 r
  let more ← fieldOperand 1 m
  let func ← fieldOperand 5 f
  return ⟨dir.getLsbD 0, resp.getLsbD 0, more.getLsbD 0, func⟩

/-- A byte sequence given as bytes or as a quoted hex string, standing for the bytes `Unhex` gives (R72; 40 R76). -/
def sequenceOperand : Operand → Except DecodeError (List Byte)
  | .bytes s => .ok s
  | .hex t =>
    match unhex t with
    | some s => .ok s
    | none => .error .malformedHex
  | .ctx _ | .num _ | .absent => .error .operandShape

/-- A six-byte operand, as bytes or as a 12-digit string (40 R80, R82; U3, U4). -/
def addrOperand (o : Operand) : Except DecodeError Addr := do
  let s ← sequenceOperand o
  match Addr.ofBytes s with
  | some a => return a
  | none => .error .addressLength

/-- A data operand, as bytes or as an even-length string, of at most 255 bytes (40 R85, R87; U3, U6). -/
def dataOperand (o : Operand) : Except DecodeError (List Byte) := do
  let s ← sequenceOperand o
  if s.length ≤ N_MAX then return s else .error .dataTooLong

/-- The operands of the operation, in the order of R67. DESIGN CHOICE (log entry 12): R72 gives the quoted hex string to address and
data operands in display order and is silent on the wire-order operand `w`; ADDRDEC's `w` is read as an address operand and may be a
string, standing for its wire-order bytes, and DATADEC's `w` is taken as bytes only, a string refused. -/
def assemble (m : Mnemonic) (v : Version) (wake : Bool) (ops : List Operand) : Except DecodeError Instr :=
  match m with
  | .csum =>
    match ops with
    | [.bytes s] => .ok (.csum s)
    | _ => .error .operandShape
  | .csumchk =>
    match ops with
    | [.bytes s] => if 2 ≤ s.length then .ok (.csumchk s) else .error .bufferTooShort
    | _ => .error .operandShape
  | .addrenc =>
    match ops with
    | [.absent] => .ok (.addrenc none)
    | [o] => (addrOperand o).map (fun a => .addrenc (some a))
    | _ => .error .operandShape
  | .addrdec =>
    match ops with
    | [o] => (addrOperand o).map .addrdec
    | _ => .error .operandShape
  | .ctrlenc =>
    match ops with
    | [.num d, .num r, .num m, .num f] => (controlOperands d r m f).map (fun c => .ctrlenc c.dir c.resp c.more c.func)
    | _ => .error .operandShape
  | .ctrldec =>
    match ops with
    | [.num c] => (fieldOperand 8 c).map .ctrldec
    | _ => .error .operandShape
  | .dataenc =>
    match ops with
    | [.absent] => .ok (.dataenc none)
    | [o] => (dataOperand o).map (fun d => .dataenc (some d))
    | _ => .error .operandShape
  | .datadec =>
    match ops with
    | [.bytes s] => .ok (.datadec s)
    | _ => .error .operandShape
  | .structchk =>
    match ops with
    | [.bytes s] => .ok (.structchk s)
    | _ => .error .operandShape
  | .fnew =>
    match ops with
    | [.ctx f] => .ok (.fnew f v)
    | _ => .error .operandShape
  | .setaddr =>
    match ops with
    | [.ctx f, o] => (addrOperand o).map (.setaddr f)
    | _ => .error .operandShape
  | .clraddr =>
    match ops with
    | [.ctx f] => .ok (.clraddr f)
    | _ => .error .operandShape
  | .setctrl =>
    match ops with
    | [.ctx x, .num d, .num r, .num m, .num f] =>
      (controlOperands d r m f).map (fun c => .setctrl x c.dir c.resp c.more c.func)
    | _ => .error .operandShape
  | .setdata =>
    match ops with
    | [.ctx f, o] => (dataOperand o).map (.setdata f)
    | _ => .error .operandShape
  | .clrdata =>
    match ops with
    | [.ctx f] => .ok (.clrdata f)
    | _ => .error .operandShape
  | .setpver =>
    match ops with
    | [.ctx f] => .ok (.setpver f v)
    | _ => .error .operandShape
  | .load =>
    match ops with
    | [.ctx f, .bytes s] => .ok (.load f s)
    | _ => .error .operandShape
  | .dump =>
    match ops with
    | [.ctx f] => .ok (.dump f)
    | _ => .error .operandShape
  | .read =>
    match ops with
    | [.ctx f] => .ok (.read f v)
    | _ => .error .operandShape
  | .write =>
    match ops with
    | [.ctx f] => .ok (.write f wake)
    | _ => .error .operandShape
  | .reset =>
    match ops with
    | [] => .ok .reset
    | _ => .error .operandShape

/-- The operation a command stands for, or why it stands for none (R66-R68). -/
def decode (c : Command) : Except DecodeError Instr :=
  match decodeByte c.byte with
  | none => .error (.reservedCommand c.byte)
  | some m => assemble m (versionOfByte c.byte) (wakeOfByte c.byte) c.operands

/-- The version tag in bit 6 (R65). -/
def Version.bits : Version → Byte
  | .a => 0x00
  | .b => 0x40

/-- The wake flag in bit 7 (R65). -/
def wakeBits (w : Bool) : Byte := if w then 0x80 else 0x00

/-- The four control fields as operands (R67). -/
def controlNums (dir resp more : Bool) (func : BitVec 5) : List Operand :=
  [.num dir.toNat, .num resp.toNat, .num more.toNat, .num func.toNat]

/-- The command the host hands over for an operation: its byte (R65, R66) and its operands (R67), strings as bytes. -/
def encode : Instr → Command
  | .csum s => ⟨0x00, [.bytes s]⟩
  | .csumchk s => ⟨0x01, [.bytes s]⟩
  | .addrenc none => ⟨0x02, [.absent]⟩
  | .addrenc (some a) => ⟨0x02, [.bytes a.bytes]⟩
  | .addrdec w => ⟨0x03, [.bytes w.bytes]⟩
  | .ctrlenc d r m f => ⟨0x04, controlNums d r m f⟩
  | .ctrldec c => ⟨0x05, [.num c.toNat]⟩
  | .dataenc none => ⟨0x06, [.absent]⟩
  | .dataenc (some d) => ⟨0x06, [.bytes d]⟩
  | .datadec w => ⟨0x07, [.bytes w]⟩
  | .structchk s => ⟨0x08, [.bytes s]⟩
  | .fnew f v => ⟨0x10 ||| v.bits, [.ctx f]⟩
  | .setaddr f a => ⟨0x11, [.ctx f, .bytes a.bytes]⟩
  | .clraddr f => ⟨0x12, [.ctx f]⟩
  | .setctrl x d r m f => ⟨0x13, .ctx x :: controlNums d r m f⟩
  | .setdata f d => ⟨0x14, [.ctx f, .bytes d]⟩
  | .clrdata f => ⟨0x15, [.ctx f]⟩
  | .setpver f v => ⟨0x16 ||| v.bits, [.ctx f]⟩
  | .load f s => ⟨0x18, [.ctx f, .bytes s]⟩
  | .dump f => ⟨0x19, [.ctx f]⟩
  | .read f v => ⟨0x1a ||| v.bits, [.ctx f]⟩
  | .write f w => ⟨0x1b ||| wakeBits w, [.ctx f]⟩
  | .reset => ⟨0x1f, []⟩

/-- The row of the operation table an operation belongs to (R66). -/
def Instr.mnemonic : Instr → Mnemonic
  | .csum _ => .csum
  | .csumchk _ => .csumchk
  | .addrenc _ => .addrenc
  | .addrdec _ => .addrdec
  | .ctrlenc _ _ _ _ => .ctrlenc
  | .ctrldec _ => .ctrldec
  | .dataenc _ => .dataenc
  | .datadec _ => .datadec
  | .structchk _ => .structchk
  | .fnew _ _ => .fnew
  | .setaddr _ _ => .setaddr
  | .clraddr _ => .clraddr
  | .setctrl _ _ _ _ _ => .setctrl
  | .setdata _ _ => .setdata
  | .clrdata _ => .clrdata
  | .setpver _ _ => .setpver
  | .load _ _ => .load
  | .dump _ => .dump
  | .read _ _ => .read
  | .write _ _ => .write
  | .reset => .reset

/-- An operand with its hex string, where it is one, replaced by the bytes it stands for (R72). -/
def Operand.asBytes (o : Operand) : Operand :=
  match o with
  | .hex t =>
    match unhex t with
    | some s => .bytes s
    | none => .hex t
  | .ctx _ | .num _ | .bytes _ | .absent => o

/-- A command with every hex string replaced by the bytes it stands for (R72). -/
def Command.asBytes (c : Command) : Command := ⟨c.byte, c.operands.map (·.asBytes)⟩

/-- Operands of zeros for an operation (log entry 7): context 0, six bytes of 0, zero numbers, and the shortest sequence of
zero bytes R67 admits (two for CSUMCHK, none elsewhere). -/
def zeroOperands : Mnemonic → List Operand
  | .csum | .datadec | .structchk | .dataenc => [.bytes []]
  | .csumchk => [.bytes [0, 0]]
  | .addrenc | .addrdec => [.bytes [0, 0, 0, 0, 0, 0]]
  | .ctrlenc => [.num 0, .num 0, .num 0, .num 0]
  | .ctrldec => [.num 0]
  | .fnew | .clraddr | .clrdata | .setpver | .dump | .read | .write => [.ctx 0]
  | .setaddr => [.ctx 0, .bytes [0, 0, 0, 0, 0, 0]]
  | .setctrl => [.ctx 0, .num 0, .num 0, .num 0, .num 0]
  | .setdata | .load => [.ctx 0, .bytes []]
  | .reset => []

/-- The command whose byte has the table's bits `w`, with operands of zeros; none unless `w` fits the table's eight bits. -/
def tableCommand (nbits w : Nat) : Option Command :=
  if nbits = 8 ∧ w < 256 then
    let c : Byte := BitVec.ofNat 8 w
    some ⟨c, match decodeByte c with
      | some m => zeroOperands m
      | none => []⟩
  else none

/-- The operation the decoder reads from the bits of an opcode-table row. -/
def decodeTableWord (nbits w : Nat) : Option Instr :=
  match tableCommand nbits w with
  | some c => (decode c).toOption
  | none => none

end Sys2Proof
end

