-- ==== Sys2Proof/Machine/Codecs.lean ====
section
/-! DEFINITION. The pure field codecs and validators (40_field_codecs R77-R87): functions of their operands alone. -/

namespace Sys2Proof

/-- `sum8(s)`: the accumulator set to 0 and each byte added modulo 256 (00_scope R10; R77). -/
def sum8 (s : List Byte) : Byte := s.foldl (fun acc b => acc + b) 0

/-- The half-open slice `s[i:j]` (00_scope R10). -/
def slice (s : List Byte) (i j : Nat) : List Byte := (s.drop i).take (j - i)

/-- `sum8(buf[0 : n-2])`, the checksum of the summed range of a buffer (R78; 41 R100 step 2, R101). -/
def bufferSum (buf : List Byte) : Byte := sum8 (slice buf 0 (buf.length - 2))

/-- The checksum predicate on a buffer of at least two bytes: `sum8(buf[0 : n-2]) = buf[n-2]` (R78). -/
def checksumHolds (buf : List Byte) : Bool := buf[buf.length - 2]? == some (bufferSum buf)

/-- The structure predicate: at least 8 bytes, `SOF` at 0 and 7, `END` last (R79). -/
def structureHolds (buf : List Byte) : Bool :=
  decide (8 ≤ buf.length) && buf[0]? == some SOF && buf[7]? == some SOF && buf[buf.length - 1]? == some END

/-- `rev` on six bytes (00_scope R10). -/
def Addr.rev (a : Addr) : Addr := ⟨a.b5, a.b4, a.b3, a.b2, a.b1, a.b0⟩

/-- The broadcast address `BCAST` (00_scope R6). -/
def Addr.broadcast : Addr := ⟨BCAST_BYTE, BCAST_BYTE, BCAST_BYTE, BCAST_BYTE, BCAST_BYTE, BCAST_BYTE⟩

/-- ADDRENC: display order to wire order; an absent address gives the broadcast bytes (R80; 20_memory R39). -/
def addrEnc : Option Addr → Addr
  | none => Addr.broadcast
  | some a => a.rev

/-- ADDRDEC: wire order to display order, always a present address (R81). -/
def addrDec (w : Addr) : Addr := w.rev

/-- `ADDRENC_S` (R82): a 12-digit string to the wire. -/
def addrEncString (t : List Char) : Option Addr :=
  match unhex t with
  | some s => (Addr.ofBytes s).map (fun a => addrEnc (some a))
  | none => none

/-- `ADDRDEC_S` (R82): the wire to a lowercase 12-digit string. -/
def addrDecString (w : Addr) : List Char := hex (addrDec w).bytes

/-- CTRLENC: each field shifted into its place and summed (R83; 30_encoding R55). -/
def ctrlEnc (c : Control) : Byte :=
  BitVec.ofNat 8 (c.dir.toNat * 128 + c.resp.toNat * 64 + c.more.toNat * 32 + c.func.toNat)

/-- CTRLDEC: bits 7, 6, 5 and 4..0 (R84; 30_encoding R55). -/
def ctrlDec (c : Byte) : Control := ⟨c.getLsbD 7, c.getLsbD 6, c.getLsbD 5, c.extractLsb' 0 5⟩

/-- DATAENC: the bias added to each byte modulo 256, then reversed; absent data gives no bytes (R85; 20_memory R40). -/
def dataEnc : Option (List Byte) → List Byte
  | none => []
  | some d => (d.map (· + BIAS)).reverse

/-- DATADEC: reversed, then the bias subtracted from each byte modulo 256 (R86). -/
def dataDec (w : List Byte) : List Byte := w.reverse.map (· - BIAS)

/-- `DATAENC_S` (R87): an even-length string of at most 510 digits to the wire; a longer one stands for over 255 bytes and has no
wire form (30_encoding R62; R85, U6). -/
def dataEncString (t : List Char) : Option (List Byte) :=
  match unhex t with
  | some d => if d.length ≤ N_MAX then some (dataEnc (some d)) else none
  | none => none

/-- `DATADEC_S` (R87): the wire to a lowercase string. -/
def dataDecString (w : List Byte) : List Char := hex (dataDec w)

end Sys2Proof
end

