-- ==== Sys2Proof/Machine/Frame.lean ====
section
/-! DEFINITION. One frame context (10_state R13-R18) and the fresh frame (R21). A field that may hold no value is an Option:
its presence bit is whether a value is there, so "no value" is never read as zero (R32). -/

namespace Sys2Proof.Machine

/-- The registers of one frame context `F[f]`. -/
structure Frame where
  /-- `ADDR` in display order, with `ADDR_P` (R14) -/
  addr : Option Addr
  /-- `DIR`, `RESP`, `MORE`, `FUNC` (R15) -/
  ctrl : Control
  /-- `DATA` in display order, with `DATA_P`; its length is `DLEN` (R16) -/
  data : Option (List Byte)
  /-- `RAW`, with `RAW_P` (R17) -/
  raw : Option (List Byte)
  /-- `PVER` (R18) -/
  pver : Version
  deriving DecidableEq, Repr

/-- `Fresh(v)`: no address, no data, no raw bytes, the control unpacked from `CTRL_DEFAULT` (R21). -/
def freshFrame (ctrlDefault : Byte) (v : Version) : Frame :=
  { addr := none, ctrl := ctrlDec ctrlDefault, data := none, raw := none, pver := v }

end Sys2Proof.Machine
end

