-- ==== Sys2Proof/Machine/State.lean ====
section
/-! DEFINITION. The state of the block and of a run (10_state; 70_reset R156), the reasons a step can stop, and the state
right after reset (10_state R32; 70_reset R138). -/

namespace Sys2Proof.Machine

/-- `RX.STATE` (10_state R24), with the operands f and V of the READ in progress (42_stream R105). -/
inductive RxState where
  | idle
  | accumulating (f : Nat) (v : Version)
  deriving DecidableEq, Repr

structure State where
  /-- the frame contexts `F[0..NCTX-1]` (10_state R13); `NCTX` is the length -/
  ctx : List Frame
  /-- `RX.BUF`, oldest byte first (10_state R23) -/
  rxBuf : List Byte
  /-- `RX.STATE` (10_state R24) -/
  rx : RxState
  /-- `ACC`, the checksum accumulator (10_state R25) -/
  acc : Byte
  /-- `STATUS.ERR` (10_state R27) -/
  statusErr : BitVec 3
  /-- `RXBUF_MAX`, a parameter no step changes (00_scope R9; log entry 1) -/
  rxBufMax : Option Nat
  /-- `CTRL_DEFAULT`, a parameter no step changes (00_scope R9; log entry 1) -/
  ctrlDefault : Byte
  /-- the commands the host has still to issue, next first (70_reset R156; log entry 3) -/
  pending : List Command
  /-- the symbols announced to stand next in the byte source (20_memory R37; log entry 4) -/
  source : List Symbol
  /-- how many symbols `RxNext` has returned; it numbers the free symbols past `source` (log entry 4) -/
  rxTaken : Nat
  /-- the `TxWrite` calls so far, oldest first (20_memory R38; log entry 5) -/
  sink : List (List Byte)
  /-- the outcomes of the operations so far, oldest first (60_exceptions R118; log entry 5) -/
  results : List Result
  /-- the coming samples of the reset input, one a step; deasserted past the last (70_reset R138; log entry 6) -/
  resetLine : List Bool
  deriving DecidableEq, Repr

/-- Why the machine stops dead. The block's own error kinds are outcomes, not stops (60_exceptions R131, R132). -/
inductive Fault where
  /-- Raised by the step that ends a READ when the READ's context does not exist. No run reaches such a state (READ checks its
  context when it starts). Safe: nothing can be proved of what follows. -/
  | readContextMissing (f : Nat)
  deriving DecidableEq, Repr

/-- Why an input has no meaning (60_exceptions R125; 93_implementation_defined). Each is safe: the model stops where the source
gives no contract. -/
inductive Refusal where
  /-- Raised by an arm of `exec` that has no meaning yet. -/
  | notModelled (mnemonic : String)
  /-- Raised by `step` for a command that is no operation (30_encoding R67, R68; U3-U7, U13). -/
  | undecodable (e : DecodeError)
  /-- Raised by every operation that names a context at or above `NCTX` (U16). -/
  | contextOutOfRange (f : Nat)
  /-- Raised by DATAENC and SETDATA on over 255 bytes, and by DUMP and WRITE in a state, reached by no run, that holds
  such data (U6). -/
  | dataTooLong
  /-- Raised by CSUMCHK on fewer than two bytes (U7). -/
  | bufferTooShort
  /-- Raised by a host read of `ADDR`, `DATA` or `RAW` while it is absent (10_state R34; U15). -/
  | absentRegister
  /-- Raised by a host read while a READ is in progress: the model's choice, where 10_state R34 allows no read (log entry 11). -/
  | operationInProgress
  deriving DecidableEq, Repr

/-- The outcome of one step of this machine. -/
abbrev Stepped := Host.Outcome State Fault Refusal

/-- The state after reset of a block with the given parameters: every context `Fresh(A)`, the reader idle and empty, `ACC` and
`STATUS.ERR` 0 (10_state R32), nothing issued, announced, sent or reported yet. -/
def State.resetWith (nctx : Nat) (rxBufMax : Option Nat) (ctrlDefault : Byte) : State :=
  { ctx := List.replicate nctx (freshFrame ctrlDefault .a)
    rxBuf := []
    rx := .idle
    acc := 0
    statusErr := 0
    rxBufMax := rxBufMax
    ctrlDefault := ctrlDefault
    pending := []
    source := []
    rxTaken := 0
    sink := []
    results := []
    resetLine := [] }

/-- The state right after reset, of the block whose parameters Config leaves open (10_state R32; 70_reset R138). -/
def State.reset : State := State.resetWith Config.nctx Config.rxBufMax Config.ctrlDefault

end Sys2Proof.Machine
end

