-- ==== Sys2Proof/Machine/Flags.lean ====
section
/-! DEFINITION. The one-bit state that plays the part of flags (10_state R29), read off its one home, and the codes of
`STATUS.ERR` (60_exceptions R124). The block has no arithmetic condition codes. -/

namespace Sys2Proof.Machine

/-- `ADDR_P` (10_state R14). -/
def Frame.addrP (F : Frame) : Bool := F.addr.isSome

/-- `DATA_P` (10_state R16). -/
def Frame.dataP (F : Frame) : Bool := F.data.isSome

/-- `RAW_P` (10_state R17). -/
def Frame.rawP (F : Frame) : Bool := F.raw.isSome

/-- `DLEN`: the number of data bytes, 0 while data is absent (10_state R16; 41 R97, R98). -/
def Frame.dlen (F : Frame) : Nat :=
  match F.data with
  | some d => d.length
  | none => 0

/-- The data fits the one-byte length (10_state R16: `0 ≤ DLEN ≤ 255`). -/
def Frame.dataFits (F : Frame) : Bool := decide (F.dlen ≤ N_MAX)

/-- The encoding of `PVER`: 0 = Version A, 1 = Version B (10_state R18). -/
def versionBit : Version → Bool
  | .a => false
  | .b => true

/-- The bit of `RX.STATE`: IDLE 0, ACCUMULATING 1 (10_state R24). -/
def rxBit : RxState → Bool
  | .idle => false
  | .accumulating _ _ => true

/-- The code of `STATUS.ERR` for Ok (60_exceptions R124). -/
def okCode : BitVec 3 := 0

/-- The code of `STATUS.ERR` for an error (60_exceptions R124). -/
def errorCode : OpError → BitVec 3
  | .structureError _ => 1
  | .checksumError => 2
  | .timeoutError => 3
  | .lengthFault => 4
  | .overflowFault => 5

end Sys2Proof.Machine
end

