-- ==== Sys2Proof/Machine/Operands.lean ====
section
/-! DEFINITION. Where LOAD and DUMP find and put each field of a frame buffer (30_encoding R53, R60, R61; 41_frame R101). -/

namespace Sys2Proof.Machine

/-- What LOAD's steps 3 to 5 take out of a buffer (41_frame R100). -/
structure Fields where
  addr : Addr
  ctrl : Control
  data : List Byte
  deriving DecidableEq, Repr

/-- Steps 3 to 5 of LOAD: address from `buf[1:7]`, control from `buf[8]`, N from `buf[9]`, data from `buf[10 : 10+N]`.
Nothing when one of those offsets does not exist: the slice is never shortened (41_frame R100 corner case (d)). -/
def loadFields (buf : List Byte) : Option Fields :=
  match Addr.ofBytes (slice buf 1 7), buf[8]?, buf[9]? with
  | some w, some c, some n =>
    if 10 + n.toNat ≤ buf.length then
      some { addr := addrDec w, ctrl := ctrlDec c, data := dataDec (slice buf 10 (10 + n.toNat)) }
    else none
  | _, _, _ => none

/-- The bytes of DUMP before the checksum: marker, address, marker, control, length, data (41_frame R103). -/
def dumpBody (F : Frame) : List Byte :=
  let w := dataEnc F.data
  [SOF] ++ (addrEnc F.addr).bytes ++ [SOF] ++ [ctrlEnc F.ctrl] ++ [BitVec.ofNat 8 w.length] ++ w

/-- `DUMP`: the body, its checksum and the end marker (41_frame R103). -/
def dumpFrame (F : Frame) : List Byte := dumpBody F ++ [sum8 (dumpBody F)] ++ [END]

/-- The writer's preamble `rep(0xfe, 4)` when W = 1, nothing when W = 0 (42_stream R112; 00_scope R7). -/
def preamble (wake : Bool) : List Byte := if wake then List.replicate WAKE_COUNT WAKE else []

/-- What one run of LOAD leaves: the frame, the accumulator, and the error it raised if it raised one. -/
structure Loaded where
  frame : Frame
  acc : Byte
  error : Option OpError
  deriving DecidableEq, Repr

/-- LOAD into the frame `F`, the checks in the one order of R102: structure, then `RAW` and the checksum, then the length guard,
then the fields (41_frame R100). `ACC` is written when the checksum is computed (10_state R33). -/
def loadFrame (F : Frame) (acc : Byte) (buf : List Byte) : Loaded :=
  if structureHolds buf then
    let kept := { F with raw := some buf }
    if checksumHolds buf then
      match loadFields buf with
      | some fl =>
        { frame := { kept with addr := some fl.addr, ctrl := fl.ctrl, data := some fl.data }
          acc := bufferSum buf, error := none }
      | none => { frame := kept, acc := bufferSum buf, error := some .lengthFault }
    else { frame := kept, acc := bufferSum buf, error := some .checksumError }
  else { frame := F, acc := acc, error := some (.structureError buf) }

end Sys2Proof.Machine
end

