-- ==== Sys2Proof/Machine/Ops.lean ====
section
/-! DEFINITION. The named operations over the registers, the result port, the byte source and the byte sink, and how an operation
ends: with a result, or by raising an error (60_exceptions R118, R130). There is no return from an error (R132). -/

namespace Sys2Proof.Machine

/-- `F[f] <- F` (10_state R13). -/
def State.setFrame (s : State) (f : Nat) (F : Frame) : State := { s with ctx := s.ctx.set f F }

/-- `ACC <- a` (10_state R25). -/
def State.setAcc (s : State) (a : Byte) : State := { s with acc := a }

/-- `RX.BUF <- b` (10_state R23). -/
def State.setRxBuf (s : State) (b : List Byte) : State := { s with rxBuf := b }

/-- `RX.STATE <- r` (10_state R24). -/
def State.setRx (s : State) (r : RxState) : State := { s with rx := r }

/-- `STATUS.ERR <- c` (10_state R27). -/
def State.setStatus (s : State) (c : BitVec 3) : State := { s with statusErr := c }

/-- Hand the host an outcome (60_exceptions R118). -/
def State.report (s : State) (r : Result) : State := { s with results := s.results ++ [r] }

/-- `TxWrite(out)`: the whole sequence appended to the output history (20_memory R38). -/
def State.txWrite (s : State) (out : List Byte) : State := { s with sink := s.sink ++ [out] }

/-- The host's remaining commands. -/
def State.setPending (s : State) (cs : List Command) : State := { s with pending := cs }

/-- The remaining samples of the reset input. -/
def State.setResetLine (s : State) (l : List Bool) : State := { s with resetLine := l }

/-- `return v`: the operation ends Ok with result v (00_scope R10). `STATUS.ERR` is LOAD's and READ's alone (10_state R27). -/
def State.answer (s : State) (v : Value) : State := s.report (.ok v)

/-- LOAD or READ ends Ok: `STATUS.ERR <- 0` and the outcome (41_frame R100, 42_stream R106). -/
def State.succeed (s : State) : State := (s.setStatus okCode).report (.ok .unit)

/-- `raise E`: LOAD or READ ends with an error, every write made so far kept, `STATUS.ERR` set to its code and the outcome handed to
the host; control goes nowhere (60_exceptions R118, R124, R130). -/
def State.raise (s : State) (e : OpError) : State := (s.setStatus (errorCode e)).report (.error e)

/-- The end of LOAD or READ, by its outcome. -/
def State.finish (s : State) : Option OpError → State
  | none => s.succeed
  | some e => s.raise e

/-- Run `k` on the frame of context f; refuse an index at or above `NCTX` (30_encoding R67, U16). -/
def withFrame (f : Nat) (s : State) (k : Frame → Stepped) : Stepped :=
  match s.ctx[f]? with
  | some F => k F
  | none => .refused (.contextOutOfRange f)

/-- Assign registers of context f and end Ok: what FNEW, SETADDR, CLRADDR, SETCTRL, SETDATA, CLRDATA and SETPVER do
(41_frame R93-R99). -/
def assign (f : Nat) (s : State) (g : Frame → Frame) : Stepped :=
  withFrame f s fun F => .next ((s.setFrame f (g F)).answer .unit)

/-- Serialise context f, leaving the checksum in `ACC`, and go on with the bytes (41_frame R103; 10_state R33). The length must
fit its byte (U6). -/
def withDump (f : Nat) (s : State) (k : State → List Byte → Stepped) : Stepped :=
  withFrame f s fun F =>
    if F.dataFits then k (s.setAcc (sum8 (dumpBody F))) (dumpFrame F) else .refused .dataTooLong

/-- The next symbol of the byte source: announced by `source`, or free past it (20_memory R37). -/
def State.nextSymbol (s : State) : Symbol :=
  match s.source with
  | x :: _ => x
  | [] => Config.rxSymbol s.rxTaken

/-- The state once `RxNext` has consumed that symbol: the only read with a side effect (20_memory R37, R46). -/
def State.takeSymbol (s : State) : State := { s with source := s.source.drop 1, rxTaken := s.rxTaken + 1 }

/-- The reader's buffer can take no more: `len(RX.BUF) = RXBUF_MAX`, `RXBUF_MAX` a number (42_stream R106). -/
def State.rxFull (s : State) : Bool :=
  match s.rxBufMax with
  | some m => decide (s.rxBuf.length = m)
  | none => false

/-- The effect of reset on the block, by the command or by the input: every context `Fresh(A)`, the reader idle and empty, `ACC` and
`STATUS.ERR` 0; source, sink and host are not touched (43_system R115; 70_reset R138, R139). -/
def State.resetBlock (s : State) : State :=
  { s with
    ctx := s.ctx.map (fun _ => freshFrame s.ctrlDefault .a)
    rxBuf := []
    rx := .idle
    acc := 0
    statusErr := okCode }

end Sys2Proof.Machine
end

