-- ==== Sys2Proof/Machine/FieldCodecs.lean ====
section
/-! DEFINITION. The meanings of CSUM, CSUMCHK, ADDRENC, ADDRDEC, CTRLENC, CTRLDEC, DATAENC, DATADEC and STRUCTCHK
(40_field_codecs): each a result; CSUM and CSUMCHK also leave their sum in `ACC` (10_state R33). -/

namespace Sys2Proof.Machine

/-- CSUM s (R77). -/
def execCsum (s : List Byte) (st : State) : Stepped := .next ((st.setAcc (sum8 s)).answer (.byte (sum8 s)))

/-- CSUMCHK buf (R78); fewer than two bytes are refused (U7). -/
def execCsumchk (buf : List Byte) (st : State) : Stepped :=
  if 2 ≤ buf.length then .next ((st.setAcc (bufferSum buf)).answer (.bit (checksumHolds buf)))
  else .refused .bufferTooShort

/-- ADDRENC a, or `absent` (R80). -/
def execAddrenc (a : Option Addr) (st : State) : Stepped := .next (st.answer (.bytes (addrEnc a).bytes))

/-- ADDRDEC w (R81). -/
def execAddrdec (w : Addr) (st : State) : Stepped := .next (st.answer (.bytes (addrDec w).bytes))

/-- CTRLENC dir, resp, more, func (R83). -/
def execCtrlenc (dir resp more : Bool) (func : BitVec 5) (st : State) : Stepped :=
  .next (st.answer (.byte (ctrlEnc ⟨dir, resp, more, func⟩)))

/-- CTRLDEC c (R84). -/
def execCtrldec (c : Byte) (st : State) : Stepped := .next (st.answer (.ctrl (ctrlDec c)))

/-- DATAENC d, or `absent` (R85); over 255 bytes are refused (U6). -/
def execDataenc (d : Option (List Byte)) (st : State) : Stepped :=
  if (d.getD []).length ≤ N_MAX then .next (st.answer (.bytes (dataEnc d))) else .refused .dataTooLong

/-- DATADEC w (R86). -/
def execDatadec (w : List Byte) (st : State) : Stepped := .next (st.answer (.bytes (dataDec w)))

/-- STRUCTCHK buf (R79). -/
def execStructchk (buf : List Byte) (st : State) : Stepped := .next (st.answer (.bit (structureHolds buf)))

end Sys2Proof.Machine
end

