-- ==== Sys2Proof/Machine/FrameOps.lean ====
section
/-! DEFINITION. The meanings of FNEW, SETADDR, CLRADDR, SETCTRL, SETDATA, CLRDATA, SETPVER, LOAD and DUMP (41_frame). -/

namespace Sys2Proof.Machine

/-- FNEW f, V (R93): `F[f] <- Fresh(V)`. -/
def execFnew (f : Nat) (v : Version) (s : State) : Stepped := assign f s fun _ => freshFrame s.ctrlDefault v

/-- SETADDR f, a (R94). -/
def execSetaddr (f : Nat) (a : Addr) (s : State) : Stepped := assign f s fun F => { F with addr := some a }

/-- CLRADDR f (R95). -/
def execClraddr (f : Nat) (s : State) : Stepped := assign f s fun F => { F with addr := none }

/-- SETCTRL f, dir, resp, more, func (R96): the four fields together. -/
def execSetctrl (f : Nat) (dir resp more : Bool) (func : BitVec 5) (s : State) : Stepped :=
  assign f s fun F => { F with ctrl := ⟨dir, resp, more, func⟩ }

/-- SETDATA f, d (R97); over 255 bytes are refused (U6). -/
def execSetdata (f : Nat) (d : List Byte) (s : State) : Stepped :=
  if d.length ≤ N_MAX then assign f s fun F => { F with data := some d } else .refused .dataTooLong

/-- CLRDATA f (R98). -/
def execClrdata (f : Nat) (s : State) : Stepped := assign f s fun F => { F with data := none }

/-- SETPVER f, V (R99). -/
def execSetpver (f : Nat) (v : Version) (s : State) : Stepped := assign f s fun F => { F with pver := v }

/-- LOAD f, buf (R100): load into `F[f]` itself and end with LOAD's outcome. -/
def execLoad (f : Nat) (buf : List Byte) (s : State) : Stepped :=
  withFrame f s fun F =>
    let r := loadFrame F s.acc buf
    .next (((s.setFrame f r.frame).setAcc r.acc).finish r.error)

/-- DUMP f (R103): the bytes are the result; no register of `F[f]` changes. -/
def execDump (f : Nat) (s : State) : Stepped := withDump f s fun s' out => .next (s'.answer (.bytes out))

end Sys2Proof.Machine
end

