-- ==== Sys2Proof/Machine/Stream.lean ====
section
/-! DEFINITION. READ, its start and its per-symbol step, and WRITE (42_stream). -/

namespace Sys2Proof.Machine

/-- READ f, V, the start (R105): the buffer emptied, the reader accumulating for context f. The symbols are taken by `readStep`,
one a step (R106; 20_memory R45). -/
def execRead (f : Nat) (v : Version) (s : State) : Stepped :=
  withFrame f s fun _ => .next ((s.setRxBuf []).setRx (.accumulating f v))

/-- The end of a READ whose buffer has its end marker: LOAD into a temporary fresh frame, copied to `F[f]` only on Ok
(R106 corner case (f), R110). -/
def finishRead (f : Nat) (v : Version) (s : State) : Stepped :=
  let r := loadFrame (freshFrame s.ctrlDefault v) s.acc s.rxBuf
  let s' := (s.setRx .idle).setAcc r.acc
  match r.error with
  | some e => .next (s'.raise e)
  | none => if f < s.ctx.length then .next ((s'.setFrame f r.frame).succeed) else .fault (.readContextMissing f)

/-- What READ does with a byte it has taken: drop a wake byte, raise OverflowFault when the buffer is full, else append it, ending
the READ at an end marker (R106). -/
def readByte (f : Nat) (v : Version) (b : Byte) (s : State) : Stepped :=
  if b = WAKE then .next s
  else if s.rxFull then .next ((s.setRx .idle).raise .overflowFault)
  else
    let s' := s.setRxBuf (s.rxBuf ++ [b])
    if b = END then finishRead f v s' else .next s'

/-- The READ step (R106): one symbol taken; `None` ends the READ with TimeoutError. -/
def readStep (f : Nat) (v : Version) (s : State) : Stepped :=
  match s.nextSymbol with
  | .noByte => .next ((s.takeSymbol.setRx .idle).raise .timeoutError)
  | .byte b => readByte f v b s.takeSymbol

/-- WRITE f, W (R112): the preamble if asked for, then the dumped frame, in one `TxWrite`. -/
def execWrite (f : Nat) (wake : Bool) (s : State) : Stepped :=
  withDump f s fun s' out => .next ((s'.txWrite (preamble wake ++ out)).answer .unit)

end Sys2Proof.Machine
end

