-- ==== Sys2Proof/Machine/System.lean ====
section
/-! DEFINITION. The meaning of RESET (43_system). -/

namespace Sys2Proof.Machine

/-- RESET (R115): the block in its reset state; the operation ends Ok. -/
def execReset (s : State) : Stepped := .next (s.resetBlock.answer .unit)

end Sys2Proof.Machine
end

