-- ==== Sys2Proof/Machine/Dispatch.lean ====
section
/-! DEFINITION. One arm per operation (30_encoding R66). `step` calls `exec` only while no READ is in progress (70_reset R157 (a)). -/

namespace Sys2Proof.Machine

def exec (i : Instr) (s : State) : Host.Outcome State Fault Refusal :=
  match i with
  | .csum x => Sys2Proof.Machine.execCsum x s
  | .csumchk buf => Sys2Proof.Machine.execCsumchk buf s
  | .addrenc a => Sys2Proof.Machine.execAddrenc a s
  | .addrdec w => Sys2Proof.Machine.execAddrdec w s
  | .ctrlenc dir resp more func => Sys2Proof.Machine.execCtrlenc dir resp more func s
  | .ctrldec c => Sys2Proof.Machine.execCtrldec c s
  | .dataenc d => Sys2Proof.Machine.execDataenc d s
  | .datadec w => Sys2Proof.Machine.execDatadec w s
  | .structchk buf => Sys2Proof.Machine.execStructchk buf s
  | .fnew f v => Sys2Proof.Machine.execFnew f v s
  | .setaddr f a => Sys2Proof.Machine.execSetaddr f a s
  | .clraddr f => Sys2Proof.Machine.execClraddr f s
  | .setctrl f dir resp more func => Sys2Proof.Machine.execSetctrl f dir resp more func s
  | .setdata f d => Sys2Proof.Machine.execSetdata f d s
  | .clrdata f => Sys2Proof.Machine.execClrdata f s
  | .setpver f v => Sys2Proof.Machine.execSetpver f v s
  | .load f buf => Sys2Proof.Machine.execLoad f buf s
  | .dump f => Sys2Proof.Machine.execDump f s
  | .read f v => Sys2Proof.Machine.execRead f v s
  | .write f wake => Sys2Proof.Machine.execWrite f wake s
  | .reset => Sys2Proof.Machine.execReset s

end Sys2Proof.Machine
end

