-- ==== Sys2Proof/Machine/Sequencer.lean ====
section
/-! DEFINITION. What one step of the machine is: the reset input first, else the next symbol of a READ in progress, else the
host's next command (20_memory R45, R48; 43_system R115; 70_reset R156). -/

namespace Sys2Proof.Machine

/-- Take the host's next command: decode it and do the operation. With nothing to issue the block waits and nothing happens
(60_exceptions R126; 70_reset R138). A command that is no operation is refused (30_encoding R68). -/
def issue (s : State) : Stepped :=
  match s.pending with
  | [] => .next s
  | c :: cs =>
    match decode c with
    | .ok i => exec i (s.setPending cs)
    | .error e => .refused (.undecodable e)

/-- One step with the reset input deasserted: a READ in progress takes its next symbol and nothing else runs (20_memory R45). -/
def proceed (s : State) : Stepped :=
  match s.rx with
  | .accumulating f v => readStep f v s
  | .idle => issue s

/-- One step. An asserted reset input abandons a READ in progress without any outcome (43_system R115). -/
def advance (s : State) : Stepped :=
  match s.resetLine with
  | true :: l => .next (s.setResetLine l).resetBlock
  | false :: l => proceed (s.setResetLine l)
  | [] => proceed s

/-- Make `c` the command the very next step issues: no READ in progress, the reset input deasserted, `c` first in line. -/
def State.place (s : State) (c : Command) : State :=
  { s with rx := .idle, resetLine := false :: s.resetLine, pending := c :: s.pending }

end Sys2Proof.Machine
end

