-- ==== Sys2Proof/Machine/FuncTable.lean ====
section
/-! DEFINITION. The function-code tables and their lookups (30_encoding R64; 40_field_codecs R88). No operation of the block
consults them. -/

namespace Sys2Proof

/-- The names of a version's table (30_encoding R64). -/
def functionNames : Version → List FuncName
  | .a => [.readData, .readAddress, .writeData, .writeAddress, .setSpeed, .setPassword, .resetPower]
  | .b => [.readData, .readMore, .readAgain, .writeData, .broadcastTime, .writeAddress, .setSpeed, .setPassword,
           .resetDemand]

/-- `FUNC_TABLE`: function name to 5-bit code, per version (00_scope R9). -/
structure FuncTable where
  a : List (FuncName × BitVec 5)
  b : List (FuncName × BitVec 5)
  deriving DecidableEq, Repr

/-- The entries of one version (R64). -/
def FuncTable.entries (t : FuncTable) : Version → List (FuncName × BitVec 5)
  | .a => t.a
  | .b => t.b

/-- `FuncCode(v, name)` (R88). -/
def funcCode (t : FuncTable) (v : Version) (n : FuncName) : Option (BitVec 5) :=
  ((t.entries v).find? (fun e => e.1 == n)).map (·.2)

/-- `FuncName(v, code)`, or "no name" (R88). -/
def funcName (t : FuncTable) (v : Version) (c : BitVec 5) : Option FuncName :=
  ((t.entries v).find? (fun e => e.2 == c)).map (·.1)

/-- What the source fixes of the tables: each version's names, distinct codes within a version, and (A, read-address) = 0x13
(R64, R88). -/
def FuncTable.legal (t : FuncTable) : Bool :=
  t.a.map (·.1) == functionNames .a && t.b.map (·.1) == functionNames .b &&
  decide (t.a.map (·.2)).Nodup && decide (t.b.map (·.2)).Nodup &&
  funcCode t .a .readAddress == some 0x13

/-- A number for each function name, by which a code order gives it a code. -/
def FuncName.number : FuncName → BitVec 5
  | .readData => 0
  | .readAddress => 1
  | .readMore => 2
  | .readAgain => 3
  | .writeData => 4
  | .broadcastTime => 5
  | .writeAddress => 6
  | .setSpeed => 7
  | .setPassword => 8
  | .resetPower => 9
  | .resetDemand => 10

/-- The code of a name in a version: OPEN, but distinct for distinct names, and 0x13 for read-address of Version A, which changes
places with whatever name the order gave 0x13 (R64, R88, D20; log entry 1). -/
def Config.funcCode (v : Version) (n : FuncName) : BitVec 5 :=
  match v with
  | .a => Equiv.swap (Config.codeOrder .a FuncName.readAddress.number) 0x13 (Config.codeOrder .a n.number)
  | .b => Config.codeOrder .b n.number

/-- The table of the machine: each version's names with their codes (R64, D20; log entry 1). -/
def Config.funcTable : FuncTable :=
  { a := (functionNames .a).map fun n => (n, Config.funcCode .a n)
    b := (functionNames .b).map fun n => (n, Config.funcCode .b n) }

end Sys2Proof
end

