-- ==== Sys2Proof/Machine/HostRead.lean ====
section
/-! DEFINITION. The host's reads of registers (10_state R34; 43_system R116): no operation, no command byte, no side effect. -/

namespace Sys2Proof.Machine

/-- The registers by name (10_state). -/
inductive Reg where
  | addrP (f : Nat) | addr (f : Nat) | dir (f : Nat) | resp (f : Nat) | more (f : Nat) | func (f : Nat)
  | dataP (f : Nat) | dlen (f : Nat) | data (f : Nat) | rawP (f : Nat) | raw (f : Nat) | pver (f : Nat)
  | rxBuf | rxState | acc | statusErr
  deriving DecidableEq, Repr

/-- What a register holds, by its width. -/
inductive RegValue where
  | bit (b : Bool)
  | func (v : BitVec 5)
  | count (n : Nat)
  | bytes (s : List Byte)
  | byte (b : Byte)
  | code (c : BitVec 3)
  deriving DecidableEq, Repr

/-- R34 lets the host read while no operation is in progress; DEDUCED (log entry 11): another read is refused. -/
def hostIdle (s : State) : Except Refusal Unit :=
  match s.rx with
  | .idle => .ok ()
  | .accumulating _ _ => .error .operationInProgress

/-- The context a host read names (U16). -/
def hostFrame (s : State) (f : Nat) : Except Refusal Frame :=
  match s.ctx[f]? with
  | some F => .ok F
  | none => .error (.contextOutOfRange f)

/-- The value of a register that may be absent: refused while it is, never zero (R34, D25). -/
def ifPresent {α : Type} (x : Option α) : Except Refusal α :=
  match x with
  | some a => .ok a
  | none => .error .absentRegister

/-- What the named register holds. -/
def readRegister (s : State) : Reg → Except Refusal RegValue
  | .addrP f => (hostFrame s f).map fun F => .bit F.addrP
  | .addr f => (hostFrame s f).bind fun F => (ifPresent F.addr).map fun a => .bytes a.bytes
  | .dir f => (hostFrame s f).map fun F => .bit F.ctrl.dir
  | .resp f => (hostFrame s f).map fun F => .bit F.ctrl.resp
  | .more f => (hostFrame s f).map fun F => .bit F.ctrl.more
  | .func f => (hostFrame s f).map fun F => .func F.ctrl.func
  | .dataP f => (hostFrame s f).map fun F => .bit F.dataP
  | .dlen f => (hostFrame s f).map fun F => .count F.dlen
  | .data f => (hostFrame s f).bind fun F => (ifPresent F.data).map .bytes
  | .rawP f => (hostFrame s f).map fun F => .bit F.rawP
  | .raw f => (hostFrame s f).bind fun F => (ifPresent F.raw).map .bytes
  | .pver f => (hostFrame s f).map fun F => .bit (versionBit F.pver)
  | .rxBuf => .ok (.bytes s.rxBuf)
  | .rxState => .ok (.bit (rxBit s.rx))
  | .acc => .ok (.byte s.acc)
  | .statusErr => .ok (.code s.statusErr)

/-- A host read: the register's value, with no side effect, at any time no operation is in progress (R34). -/
def hostRead (s : State) (r : Reg) : Except Refusal RegValue := (hostIdle s).bind fun _ => readRegister s r

/-- `Hex(F[f].ADDR)`, the 12-digit string of the address (R34; 10_state R14). -/
def addrString (s : State) (f : Nat) : Except Refusal (List Char) :=
  (hostIdle s).bind fun _ => (hostFrame s f).bind fun F => (ifPresent F.addr).map fun a => hex a.bytes

/-- `Hex(F[f].DATA)`, the string of the data, of `2 × DLEN` digits (R34; 10_state R16). -/
def dataString (s : State) (f : Nat) : Except Refusal (List Char) :=
  (hostIdle s).bind fun _ => (hostFrame s f).bind fun F => (ifPresent F.data).map hex

end Sys2Proof.Machine
end

