-- ==== Sys2Proof/Machine/Pseudo.lean ====
section
/-! DEFINITION. The pseudo-operations, each the sequence of operations it abbreviates (30_encoding R73). -/

namespace Sys2Proof

/-- `MKFRAME f, V, a, dir, resp, more, func`. -/
def mkFrame (f : Nat) (v : Version) (a : Option Addr) (dir resp more : Bool) (func : BitVec 5) : List Instr :=
  [.fnew f v,
   match a with
   | some x => .setaddr f x
   | none => .clraddr f,
   .setctrl f dir resp more func]

/-- `DISCOVER f`. -/
def discover (f : Nat) : List Instr := mkFrame f .a none false false false 0x13 ++ [.write f true]

/-- `SETCTRLB f, c`. -/
def setCtrlB (f : Nat) (c : Byte) : List Instr :=
  [.setctrl f (ctrlDec c).dir (ctrlDec c).resp (ctrlDec c).more (ctrlDec c).func]

end Sys2Proof
end

