-- ==== Sys2Proof/Safety.lean ====
section
/-! DEFINITION. What the claims are stated in: the registers within their types (10_state; 70_reset R157), what holds of the reader,
and a run without errors (70_reset R156). -/

namespace Sys2Proof.Machine

/-- Every register of the block is within its type: at least one context (10_state R13), `DLEN` at most 255 (R16), `STATUS.ERR` one
of the codes 0 to 5 (R27), `RX.BUF` no longer than `RXBUF_MAX` (R23). -/
def State.typed (s : State) : Bool :=
  decide (1 ≤ s.ctx.length) && s.ctx.all (·.dataFits) && decide (s.statusErr.toNat ≤ 5) &&
  match s.rxBufMax with
  | some m => decide (s.rxBuf.length ≤ m)
  | none => true

/-- The reader's buffer never holds a wake byte, and while a READ is in progress it holds no end marker and the READ's context exists
(42_stream R106). -/
def State.readerSound (s : State) : Bool :=
  s.rxBuf.all (· != WAKE) &&
  match s.rx with
  | .idle => true
  | .accumulating f _ => s.rxBuf.all (· != END) && decide (f < s.ctx.length)

/-- The invariant of the machine. -/
def State.sound (s : State) : Bool := s.typed && s.readerSound

/-- No operation so far ended with an error, read from the list of outcomes (70_reset R156). -/
def State.noErrors (s : State) : Bool :=
  s.results.all fun r =>
    match r with
    | .ok _ => true
    | .error _ => false

/-- `k` steps of the machine (70_reset R156). -/
def run (k : Nat) (s : State) : Stepped :=
  match k with
  | 0 => .next s
  | k + 1 =>
    match step s with
    | .next t => run k t
    | .fault r => .fault r
    | .refused r => .refused r

/-- The bytes a READ keeps of a run of symbols: the ones that are no wake bytes, in order (42_stream R107, R108). -/
def keptBytes (l : List Symbol) : List Byte :=
  l.filterMap fun x =>
    match x with
    | .byte b => if b = WAKE then none else some b
    | .noByte => none

/-- No symbol of the run ends a READ: none is `None`, none is an end marker (42_stream R107). -/
def endless (l : List Symbol) : Bool := l.all fun x => x != .noByte && x != .byte END

/-- The reader's buffer can hold n bytes (00_scope R9). -/
def State.holds (s : State) (n : Nat) : Bool :=
  match s.rxBufMax with
  | some m => decide (n ≤ m)
  | none => true

end Sys2Proof.Machine
end

