-- ==== Sys2Proof/Certificates/Slice0/Obligations.lean ====
section
/-! DEFINITION. The statements for the provers, each from numbered rules of spec/. Where a statement gives the next state by an
update of the old one, every register the update does not name is unchanged: that is its frame. -/

open Sys2Proof Sys2Proof.Machine

/- Commands and their encoding -/

/-- 30_encoding R66, R67: the command written for an operation decodes to that operation, every operand at every value. -/
def Obligations.DecodeOfEncodeIsTheOperation : Prop :=
  ∀ i : Instr, i.wellFormed = true → decode (encode i) = .ok i

/-- 30_encoding R66, R67, R72: a command that decodes is the one written for its operation, up to the spelling of a byte operand as a
hex string; and it decodes to an operation whose operands are within their types. -/
def Obligations.EncodeOfDecodeIsTheCommand : Prop :=
  ∀ (c : Command) (i : Instr), decode c = .ok i → encode i = c.asBytes ∧ i.wellFormed = true

/-- 30_encoding R74. -/
def Obligations.EveryCommandByteIsOneRowOrReserved : Prop :=
  ∀ c : Byte,
    (∃ r, r ∈ opTable ∧ r.selects c = true ∧ (∀ r' ∈ opTable, r'.selects c = true → r' = r) ∧ decodeByte c = some r.op) ∨
    ((∀ r ∈ opTable, r.selects c = false) ∧ ∀ ops, decode ⟨c, ops⟩ = .error (.reservedCommand c))

/-- 30_encoding R68: which bytes are reserved, and that the machine refuses them. -/
def Obligations.ReservedCommandsAreRefused : Prop :=
  ∀ c : Byte,
    ((∀ ops, decode ⟨c, ops⟩ = .error (.reservedCommand c)) ↔
      (c.getLsbD 5 = true ∨
       c.toNat % 32 ∈ [0x09, 0x0a, 0x0b, 0x0c, 0x0d, 0x0e, 0x0f, 0x17, 0x1c, 0x1d, 0x1e] ∨
       (c.getLsbD 7 = true ∧ c.toNat % 32 ≠ 0x1b) ∨
       (c.getLsbD 6 = true ∧ c.toNat % 32 ∉ [0x10, 0x16, 0x1a]))) ∧
    ∀ (s : State) (ops : List Operand) (cs : List Command),
      decode ⟨c, ops⟩ = .error (.reservedCommand c) → s.rx = .idle → s.resetLine.head? ≠ some true →
      s.pending = ⟨c, ops⟩ :: cs → step s = .refused (.undecodable (.reservedCommand c))

/-- 30_encoding R65-R67, 95_test_vectors V49, P1, P2: command bytes written out from the table. -/
def Obligations.WordsWrittenOutDecodeRight : Prop :=
  decode ⟨0b00000000#8, [.bytes [0x01, 0x02]]⟩ = .ok (.csum [0x01, 0x02]) ∧
  decode ⟨0b00000100#8, [.num 1, .num 0, .num 0, .num 0x11]⟩ = .ok (.ctrlenc true false false 0x11) ∧
  decode ⟨0b00010000#8, [.ctx 0]⟩ = .ok (.fnew 0 .a) ∧
  decode ⟨0b01010000#8, [.ctx 0]⟩ = .ok (.fnew 0 .b) ∧
  decode ⟨0b00010001#8, [.ctx 3, .hex ['0', '0', '1', '1', '2', '2', '3', '3', '4', '4', 'F', 'f']]⟩ =
    .ok (.setaddr 3 ⟨0x00, 0x11, 0x22, 0x33, 0x44, 0xff⟩) ∧
  decode ⟨0b00011000#8, [.ctx 1, .bytes [0x68, 0x16]]⟩ = .ok (.load 1 [0x68, 0x16]) ∧
  decode ⟨0b01011010#8, [.ctx 0]⟩ = .ok (.read 0 .b) ∧
  decode ⟨0b10011011#8, [.ctx 0]⟩ = .ok (.write 0 true) ∧
  decode ⟨0b00011011#8, [.ctx 0]⟩ = .ok (.write 0 false) ∧
  decode ⟨0b00011111#8, []⟩ = .ok .reset

/- The step around the operations -/

/-- 20_memory R45, R48; 70_reset R156: with the reader idle and the reset input deasserted, the host's next command, decoded, is done; the
step adds only that the command is issued and one sample of the reset input is gone. -/
def Obligations.StepDoesTheDecodedOperation : Prop :=
  ∀ (s : State) (c : Command) (cs : List Command) (i : Instr),
    s.rx = .idle → s.resetLine.head? ≠ some true → s.pending = c :: cs → decode c = .ok i →
    step s = exec i { s with pending := cs, resetLine := s.resetLine.tail }

/-- 20_memory R45, R46; 42_stream R106: while a READ is in progress a step takes exactly one symbol, answers a next state, and runs nothing
else: no command is issued and nothing is sent. -/
def Obligations.ReadInProgressTakesOneSymbolAndRunsAlone : Prop :=
  ∀ (s : State) (f : Nat) (v : Version),
    s.rx = .accumulating f v → f < s.ctx.length → s.resetLine.head? ≠ some true →
    ∃ t, step s = .next t ∧ t.pending = s.pending ∧ t.sink = s.sink ∧ t.source = s.source.drop 1 ∧
      t.rxTaken = s.rxTaken + 1 ∧ t.resetLine = s.resetLine.tail

/-- 60_exceptions R126; 70_reset R138: with nothing to do the block waits and nothing in it changes. -/
def Obligations.IdleBlockWaits : Prop :=
  ∀ s : State, s.rx = .idle → s.resetLine.head? ≠ some true → s.pending = [] →
    step s = .next { s with resetLine := s.resetLine.tail }

/- Field codecs -/

/-- 40_field_codecs R77. -/
def Obligations.CsumSumsModulo256 : Prop :=
  ∀ (x : List Byte) (s : State), decode ⟨0x00, [.bytes x]⟩ = .ok (.csum x) ∧
    ∃ c : Byte, c.toNat = (x.map (·.toNat)).sum % 256 ∧
    exec (.csum x) s = .next { s with acc := c, results := s.results ++ [.ok (.byte c)] }

/-- 40_field_codecs R78. -/
def Obligations.CsumchkComparesSumWithTrailer : Prop :=
  ∀ (buf : List Byte) (s : State),
    (2 ≤ buf.length → decode ⟨0x01, [.bytes buf]⟩ = .ok (.csumchk buf) ∧ ∃ c b : Byte,
      c.toNat = ((buf.take (buf.length - 2)).map (·.toNat)).sum % 256 ∧ buf[buf.length - 2]? = some b ∧
      exec (.csumchk buf) s = .next { s with acc := c, results := s.results ++ [.ok (.bit (decide (c = b)))] }) ∧
    (buf.length < 2 → decode ⟨0x01, [.bytes buf]⟩ = .error .bufferTooShort ∧ exec (.csumchk buf) s = .refused .bufferTooShort)

/-- 40_field_codecs R79. -/
def Obligations.StructchkTestsTheThreeMarkers : Prop :=
  ∀ (buf : List Byte) (s : State), decode ⟨0x08, [.bytes buf]⟩ = .ok (.structchk buf) ∧ ∃ ok : Bool,
    (ok = true ↔ 8 ≤ buf.length ∧ buf.head? = some 0x68 ∧ buf[7]? = some 0x68 ∧ buf.getLast? = some 0x16) ∧
    (ok = true → 9 ≤ buf.length) ∧
    exec (.structchk buf) s = .next { s with results := s.results ++ [.ok (.bit ok)] }

/-- 40_field_codecs R80. -/
def Obligations.AddrencReversesOrBroadcasts : Prop :=
  ∀ s : State,
    (∀ a : Addr, decode ⟨0x02, [.bytes a.bytes]⟩ = .ok (.addrenc (some a)) ∧ exec (.addrenc (some a)) s =
      .next { s with results := s.results ++ [.ok (.bytes [a.b5, a.b4, a.b3, a.b2, a.b1, a.b0])] }) ∧
    decode ⟨0x02, [.absent]⟩ = .ok (.addrenc none) ∧
    exec (.addrenc none) s = .next { s with results := s.results ++ [.ok (.bytes [0xaa, 0xaa, 0xaa, 0xaa, 0xaa, 0xaa])] } ∧
    ∀ x : List Byte, x.length ≠ 6 → decode ⟨0x02, [.bytes x]⟩ = .error .addressLength

/-- 40_field_codecs R81: the result, its string form, and that decoding undoes encoding. -/
def Obligations.AddrdecReversesAndUndoesAddrenc : Prop :=
  ∀ w : Addr, decode ⟨0x03, [.bytes w.bytes]⟩ = .ok (.addrdec w) ∧
    (∀ s : State, exec (.addrdec w) s =
      .next { s with results := s.results ++ [.ok (.bytes [w.b5, w.b4, w.b3, w.b2, w.b1, w.b0])] }) ∧
    (addrDecString w).length = 12 ∧ (∀ c ∈ addrDecString w, c ∈ "0123456789abcdef".toList) ∧
    unhex (addrDecString w) = some [w.b5, w.b4, w.b3, w.b2, w.b1, w.b0] ∧
    addrDec (addrEnc (some w)) = w ∧ addrEnc (some (addrDec w)) = w

/-- 40_field_codecs R83. -/
def Obligations.CtrlencPacksTheFields : Prop :=
  (∀ (dir resp more : Bool) (func : BitVec 5) (s : State),
    decode ⟨0x04, [.num dir.toNat, .num resp.toNat, .num more.toNat, .num func.toNat]⟩ = .ok (.ctrlenc dir resp more func) ∧
    ∃ c : Byte, c.toNat = dir.toNat * 128 + resp.toNat * 64 + more.toNat * 32 + func.toNat ∧
    exec (.ctrlenc dir resp more func) s = .next { s with results := s.results ++ [.ok (.byte c)] }) ∧
  ∀ d r m f : Nat, 2 ≤ d ∨ 2 ≤ r ∨ 2 ≤ m ∨ 32 ≤ f →
    decode ⟨0x04, [.num d, .num r, .num m, .num f]⟩ = .error .fieldTooWide

/-- 40_field_codecs R84. -/
def Obligations.CtrldecUnpacksAndUndoesCtrlenc : Prop :=
  (∀ (c : Byte) (s : State), decode ⟨0x05, [.num c.toNat]⟩ = .ok (.ctrldec c) ∧ ∃ q : Control,
    q.dir.toNat = c.toNat / 128 % 2 ∧ q.resp.toNat = c.toNat / 64 % 2 ∧ q.more.toNat = c.toNat / 32 % 2 ∧
    q.func.toNat = c.toNat % 32 ∧
    exec (.ctrldec c) s = .next { s with results := s.results ++ [.ok (.ctrl q)] }) ∧
  (∀ c : Byte, ctrlEnc (ctrlDec c) = c) ∧ ∀ q : Control, ctrlDec (ctrlEnc q) = q

/-- 40_field_codecs R85. -/
def Obligations.DataencBiasesAndReverses : Prop :=
  ∀ s : State,
    (∀ d : List Byte, d.length ≤ 255 → decode ⟨0x06, [.bytes d]⟩ = .ok (.dataenc (some d)) ∧
      ∃ w : List Byte, w.length = d.length ∧
      (∀ i, i < d.length → ∃ x y : Byte, d[d.length - 1 - i]? = some x ∧ w[i]? = some y ∧
        y.toNat = (x.toNat + 0x33) % 256) ∧
      exec (.dataenc (some d)) s = .next { s with results := s.results ++ [.ok (.bytes w)] }) ∧
    decode ⟨0x06, [.absent]⟩ = .ok (.dataenc none) ∧
    exec (.dataenc none) s = .next { s with results := s.results ++ [.ok (.bytes [])] } ∧
    ∀ d : List Byte, 255 < d.length → decode ⟨0x06, [.bytes d]⟩ = .error .dataTooLong ∧ exec (.dataenc (some d)) s = .refused .dataTooLong

/-- 40_field_codecs R86. -/
def Obligations.DatadecUnbiasesAndUndoesDataenc : Prop :=
  (∀ (w : List Byte) (s : State), decode ⟨0x07, [.bytes w]⟩ = .ok (.datadec w) ∧ ∃ d : List Byte, d.length = w.length ∧
    (∀ i, i < w.length → ∃ x y : Byte, w[w.length - 1 - i]? = some x ∧ d[i]? = some y ∧
      y.toNat = (x.toNat + (256 - 0x33)) % 256) ∧
    exec (.datadec w) s = .next { s with results := s.results ++ [.ok (.bytes d)] }) ∧
  (∀ d : List Byte, dataDec (dataEnc (some d)) = d) ∧ ∀ w : List Byte, dataEnc (some (dataDec w)) = w

/-- 40_field_codecs R76. The clause of command 0x03 rests on the model's choice that ADDRDEC's operand may be a string (log entry 12). -/
def Obligations.HexStringsRoundTrip : Prop :=
  (∀ s : List Byte, unhex (hex s) = some s) ∧
  (∀ (t : List Char) (s : List Byte), unhex t = some s → hex s = t.map lowerDigit) ∧
  (∀ (t : List Char) (s : List Byte), unhex t = some s → ∀ i, i < s.length → ∃ (h l : Char) (x y : BitVec 4) (b : Byte),
    t[2 * i]? = some h ∧ t[2 * i + 1]? = some l ∧ hexValue h = some x ∧ hexValue l = some y ∧
    s[i]? = some b ∧ b.toNat = 16 * x.toNat + y.toNat) ∧
  (∀ t : List Char, unhex t = none ↔ t.length % 2 = 1 ∨ ∃ c ∈ t, c ∉ "0123456789abcdefABCDEF".toList) ∧
  ∀ (t : List Char) (f : Nat), unhex t = none →
    decode ⟨0x02, [.hex t]⟩ = .error .malformedHex ∧ decode ⟨0x03, [.hex t]⟩ = .error .malformedHex ∧
    decode ⟨0x06, [.hex t]⟩ = .error .malformedHex ∧ decode ⟨0x11, [.ctx f, .hex t]⟩ = .error .malformedHex ∧
    decode ⟨0x14, [.ctx f, .hex t]⟩ = .error .malformedHex

/-- 40_field_codecs R89: additivity, a changed byte moves the sum by its change (so one changed byte is always seen), reordering is not. -/
def Obligations.ChecksumArithmetic : Prop :=
  (∀ x y : List Byte, sum8 (x ++ y) = sum8 x + sum8 y) ∧
  (∀ (x : List Byte) (i : Nat) (a d : Byte), x[i]? = some a → sum8 (x.set i (a + d)) = sum8 x + d) ∧
  (∀ (x : List Byte) (i : Nat) (a b : Byte), x[i]? = some a → a ≠ b → sum8 (x.set i b) ≠ sum8 x) ∧
  ∀ x y : List Byte, x.Perm y → sum8 x = sum8 y

/-- 40_field_codecs R92; 10_state R33: the frame of the nine codecs. They change the accumulator (CSUM and CSUMCHK only) and hand back
one Ok outcome; every other register and both streams are unchanged. -/
def Obligations.CodecsChangeOnlyTheAccumulator : Prop :=
  ∀ (i : Instr) (s t : State), i.isCodec = true → exec i s = .next t →
    t = { s with acc := t.acc, results := t.results } ∧
    (∃ v, t.results = s.results ++ [.ok v]) ∧
    ((∀ x, i ≠ .csum x) → (∀ x, i ≠ .csumchk x) → t.acc = s.acc)

/-- 40_field_codecs R92: the codecs give the same result in any two states. -/
def Obligations.CodecsAreStateless : Prop :=
  ∀ (i : Instr) (s₁ s₂ t₁ : State), i.isCodec = true → exec i s₁ = .next t₁ →
    ∃ (t₂ : State) (r : Result), exec i s₂ = .next t₂ ∧ t₁.results = s₁.results ++ [r] ∧ t₂.results = s₂.results ++ [r]

/- Frame operations -/

/-- 41_frame R93, 10_state R21. -/
def Obligations.FnewMakesAFreshFrame : Prop :=
  ∀ (f : Nat) (v : Version) (s : State), f < s.ctx.length →
    decode ⟨0x10, [.ctx f]⟩ = .ok (.fnew f .a) ∧ decode ⟨0x50, [.ctx f]⟩ = .ok (.fnew f .b) ∧
    exec (.fnew f v) s = .next { s with
      ctx := s.ctx.set f
        { addr := none
          ctrl := ⟨s.ctrlDefault.getLsbD 7, s.ctrlDefault.getLsbD 6, s.ctrlDefault.getLsbD 5,
            BitVec.ofNat 5 (s.ctrlDefault.toNat % 32)⟩
          data := none, raw := none, pver := v }
      results := s.results ++ [.ok .unit] }

/-- 41_frame R94, R95: the bytes and the string form; the broadcast address dumps like an absent one. -/
def Obligations.SetaddrAndClraddrAssignTheAddress : Prop :=
  ∀ (f : Nat) (s : State) (F : Frame), s.ctx[f]? = some F →
    (∀ a : Addr, decode ⟨0x11, [.ctx f, .bytes a.bytes]⟩ = .ok (.setaddr f a) ∧
      (∀ t, unhex t = some a.bytes → decode ⟨0x11, [.ctx f, .hex t]⟩ = .ok (.setaddr f a)) ∧
      exec (.setaddr f a) s =
        .next { s with ctx := s.ctx.set f { F with addr := some a }, results := s.results ++ [.ok .unit] }) ∧
    decode ⟨0x12, [.ctx f]⟩ = .ok (.clraddr f) ∧
    exec (.clraddr f) s =
      .next { s with ctx := s.ctx.set f { F with addr := none }, results := s.results ++ [.ok .unit] } ∧
    dumpFrame { F with addr := some ⟨0xaa, 0xaa, 0xaa, 0xaa, 0xaa, 0xaa⟩ } = dumpFrame { F with addr := none } ∧
    ((dumpFrame { F with addr := none }).drop 1).take 6 = [0xaa, 0xaa, 0xaa, 0xaa, 0xaa, 0xaa]

/-- 41_frame R96. -/
def Obligations.SetctrlAssignsTheFourFields : Prop :=
  ∀ (f : Nat) (s : State) (F : Frame) (dir resp more : Bool) (func : BitVec 5), s.ctx[f]? = some F →
    decode ⟨0x13, [.ctx f, .num dir.toNat, .num resp.toNat, .num more.toNat, .num func.toNat]⟩ =
      .ok (.setctrl f dir resp more func) ∧
    exec (.setctrl f dir resp more func) s =
      .next { s with ctx := s.ctx.set f { F with ctrl := ⟨dir, resp, more, func⟩ }
                     results := s.results ++ [.ok .unit] }

/-- 41_frame R97, R98: with `DLEN` the length of the assigned data, and 0 once it is cleared; the bytes and the string form; empty data
dumps like absent data, with length byte 0 and no data bytes. -/
def Obligations.SetdataAndClrdataAssignTheData : Prop :=
  ∀ (f : Nat) (s : State) (F : Frame), s.ctx[f]? = some F →
    (∀ d : List Byte, d.length ≤ 255 → decode ⟨0x14, [.ctx f, .bytes d]⟩ = .ok (.setdata f d) ∧
      (∀ t, unhex t = some d → decode ⟨0x14, [.ctx f, .hex t]⟩ = .ok (.setdata f d)) ∧ exec (.setdata f d) s =
      .next { s with ctx := s.ctx.set f { F with data := some d }, results := s.results ++ [.ok .unit] } ∧
      Frame.dlen { F with data := some d } = d.length) ∧
    (∀ d : List Byte, 255 < d.length →
      decode ⟨0x14, [.ctx f, .bytes d]⟩ = .error .dataTooLong ∧ exec (.setdata f d) s = .refused .dataTooLong) ∧
    decode ⟨0x15, [.ctx f]⟩ = .ok (.clrdata f) ∧
    exec (.clrdata f) s =
      .next { s with ctx := s.ctx.set f { F with data := none }, results := s.results ++ [.ok .unit] } ∧
    Frame.dlen { F with data := none } = 0 ∧
    dumpFrame { F with data := some [] } = dumpFrame { F with data := none } ∧
    (dumpFrame { F with data := none }).length = 12 ∧ (dumpFrame { F with data := none })[9]? = some 0

/-- 41_frame R99, R103, 10_state R18: the version tag is assigned and changes no byte DUMP produces; neither does `RAW`. -/
def Obligations.SetpverAssignsATagDumpNeverReads : Prop :=
  ∀ (f : Nat) (s : State) (F : Frame), s.ctx[f]? = some F →
    decode ⟨0x16, [.ctx f]⟩ = .ok (.setpver f .a) ∧ decode ⟨0x56, [.ctx f]⟩ = .ok (.setpver f .b) ∧
    (∀ v : Version, exec (.setpver f v) s =
      .next { s with ctx := s.ctx.set f { F with pver := v }, results := s.results ++ [.ok .unit] }) ∧
    ∀ (v : Version) (r : Option (List Byte)), dumpFrame { F with pver := v, raw := r } = dumpFrame F

/-- 30_encoding R67; 93_implementation_defined U16. -/
def Obligations.ContextsAtOrAboveNctxAreRefused : Prop :=
  ∀ (i : Instr) (f : Nat) (s : State), i.wellFormed = true → i.context? = some f → s.ctx.length ≤ f →
    exec i s = .refused (.contextOutOfRange f)

/-- 10_state R13: an operation on `F[f]` neither reads nor writes `F[g]`: with anything else put into `F[g]`, the operation, or the next
step of a READ for f, answers the same state with that put into its `F[g]`. -/
def Obligations.OperationsOnOneContextIgnoreTheOthers : Prop :=
  (∀ (i : Instr) (f g : Nat) (G : Frame) (s t : State), i.context? = some f → g ≠ f → exec i s = .next t →
    exec i (s.setFrame g G) = .next (t.setFrame g G)) ∧
  ∀ (f g : Nat) (v : Version) (G : Frame) (s t : State), s.rx = .accumulating f v → s.resetLine.head? ≠ some true →
    g ≠ f → step s = .next t → step (s.setFrame g G) = .next (t.setFrame g G)

/- LOAD -/

/-- 41_frame R100, R101: a buffer that passes the three checks is loaded. -/
def Obligations.LoadDecodesAnAcceptedBuffer : Prop :=
  ∀ (f : Nat) (buf : List Byte) (s : State) (F : Frame) (a : Addr) (c n k : Byte), s.ctx[f]? = some F →
    buf[0]? = some 0x68 → buf[7]? = some 0x68 → buf.getLast? = some 0x16 →
    buf[buf.length - 2]? = some k → k.toNat = ((buf.take (buf.length - 2)).map (·.toNat)).sum % 256 →
    buf[1]? = some a.b5 → buf[2]? = some a.b4 → buf[3]? = some a.b3 → buf[4]? = some a.b2 → buf[5]? = some a.b1 →
    buf[6]? = some a.b0 → buf[8]? = some c → buf[9]? = some n → 10 + n.toNat ≤ buf.length →
    ∃ d : List Byte, d.length = n.toNat ∧
      (∀ i, i < n.toNat → ∃ x y : Byte, buf[10 + n.toNat - 1 - i]? = some x ∧ d[i]? = some y ∧
        y.toNat = (x.toNat + (256 - 0x33)) % 256) ∧
      exec (.load f buf) s = .next { s with
        ctx := s.ctx.set f
          { addr := some a
            ctrl := ⟨c.getLsbD 7, c.getLsbD 6, c.getLsbD 5, BitVec.ofNat 5 (c.toNat % 32)⟩
            data := some d, raw := some buf, pver := F.pver }
        acc := k, statusErr := 0, results := s.results ++ [.ok .unit] }

/-- 60_exceptions R119, R130: LOAD of a buffer without its markers leaves every register of the frame as it was. -/
def Obligations.LoadWithoutMarkersIsAStructureError : Prop :=
  ∀ (f : Nat) (buf : List Byte) (s : State), f < s.ctx.length →
    buf.length < 8 ∨ buf.head? ≠ some 0x68 ∨ buf[7]? ≠ some 0x68 ∨ buf.getLast? ≠ some 0x16 →
    exec (.load f buf) s = .next { s with
      statusErr := 1, results := s.results ++ [.error (.structureError buf)] }

/-- 60_exceptions R120, R130: the markers stand and the sum is wrong: only `RAW` of the frame is written. -/
def Obligations.LoadWithWrongSumIsAChecksumError : Prop :=
  ∀ (f : Nat) (buf : List Byte) (s : State) (F : Frame) (k : Byte), s.ctx[f]? = some F → 8 ≤ buf.length →
    buf[0]? = some 0x68 → buf[7]? = some 0x68 → buf.getLast? = some 0x16 → buf[buf.length - 2]? = some k →
    k.toNat ≠ ((buf.take (buf.length - 2)).map (·.toNat)).sum % 256 →
    ∃ c : Byte, c.toNat = ((buf.take (buf.length - 2)).map (·.toNat)).sum % 256 ∧
      exec (.load f buf) s = .next { s with
        ctx := s.ctx.set f { F with raw := some buf }
        acc := c, statusErr := 2, results := s.results ++ [.error .checksumError] }

/-- 60_exceptions R122, R130: markers and sum are right and a byte the fields need does not exist: only `RAW` of the frame is written. -/
def Obligations.LoadOfMissingBytesIsALengthFault : Prop :=
  ∀ (f : Nat) (buf : List Byte) (s : State) (F : Frame) (k : Byte), s.ctx[f]? = some F → 8 ≤ buf.length →
    buf[0]? = some 0x68 → buf[7]? = some 0x68 → buf.getLast? = some 0x16 → buf[buf.length - 2]? = some k →
    k.toNat = ((buf.take (buf.length - 2)).map (·.toNat)).sum % 256 →
    buf.length < 10 ∨ (∃ n : Byte, buf[9]? = some n ∧ buf.length < 10 + n.toNat) →
    exec (.load f buf) s = .next { s with
      ctx := s.ctx.set f { F with raw := some buf }
      acc := k, statusErr := 4, results := s.results ++ [.error .lengthFault] }

/- DUMP -/

/-- 41_frame R103; 30_encoding R53, R54: the layout of a dumped frame, byte by byte, its checksum, and that it passes both checks. -/
def Obligations.DumpLaysOutTheFrame : Prop :=
  ∀ (f : Nat) (s : State) (F : Frame), s.ctx[f]? = some F → F.dlen ≤ 255 →
    ∃ (out : List Byte) (k c : Byte), out.length = 12 + F.dlen ∧
      out[0]? = some 0x68 ∧ out[7]? = some 0x68 ∧ out[11 + F.dlen]? = some 0x16 ∧
      (∀ a : Addr, F.addr = some a → (out.drop 1).take 6 = [a.b5, a.b4, a.b3, a.b2, a.b1, a.b0]) ∧
      (F.addr = none → (out.drop 1).take 6 = [0xaa, 0xaa, 0xaa, 0xaa, 0xaa, 0xaa]) ∧
      out[8]? = some c ∧
      c.toNat = F.ctrl.dir.toNat * 128 + F.ctrl.resp.toNat * 64 + F.ctrl.more.toNat * 32 + F.ctrl.func.toNat ∧
      out[9]? = some (BitVec.ofNat 8 F.dlen) ∧
      (∀ d : List Byte, F.data = some d → ∀ i, i < d.length → ∃ x y : Byte,
        d[d.length - 1 - i]? = some x ∧ out[10 + i]? = some y ∧ y.toNat = (x.toNat + 0x33) % 256) ∧
      out[10 + F.dlen]? = some k ∧ k.toNat = ((out.take (10 + F.dlen)).map (·.toNat)).sum % 256 ∧
      structureHolds out = true ∧ checksumHolds out = true ∧
      exec (.dump f) s = .next { s with acc := k, results := s.results ++ [.ok (.bytes out)] }

/-- 41_frame R103; 70_reset R149: absent and broadcast address, absent and empty data, give the same bytes; each alone and both. -/
def Obligations.AbsentFieldsDumpLikeTheirAliases : Prop :=
  ∀ (F : Frame) (x : Option Addr) (y : Option (List Byte)),
    x = none ∨ x = some ⟨0xaa, 0xaa, 0xaa, 0xaa, 0xaa, 0xaa⟩ → y = none ∨ y = some [] →
    dumpFrame { F with addr := x } = dumpFrame { F with addr := none } ∧
    dumpFrame { F with data := y } = dumpFrame { F with data := none } ∧
    dumpFrame { F with addr := x, data := y } = dumpFrame { F with addr := none, data := none }

/-- 41_frame R104, with its two exceptions: what DUMP of f produced, LOAD into g takes back, and g then dumps the same bytes. -/
def Obligations.LoadOfDumpReturnsTheFields : Prop :=
  ∀ (f g : Nat) (s : State) (F G : Frame), s.ctx[f]? = some F → F.dlen ≤ 255 → s.ctx[g]? = some G →
    ∃ (out : List Byte) (t u w : State), exec (.dump f) s = .next t ∧ t.results = s.results ++ [.ok (.bytes out)] ∧
      exec (.load g out) t = .next u ∧ u.results = t.results ++ [.ok .unit] ∧ u.statusErr = 0 ∧
      u.ctx = s.ctx.set g
        { addr := some (F.addr.getD ⟨0xaa, 0xaa, 0xaa, 0xaa, 0xaa, 0xaa⟩), ctrl := F.ctrl
          data := some (F.data.getD []), raw := some out, pver := G.pver } ∧
      exec (.dump g) u = .next w ∧ w.results = u.results ++ [.ok (.bytes out)]

/-- 41_frame R103, 70_reset R145: after an Ok LOAD of a buffer, DUMP returns that buffer exactly when its length is 12 + N. -/
def Obligations.DumpOfLoadIsTheBufferWhenStrict : Prop :=
  ∀ (f : Nat) (buf : List Byte) (s t : State) (n : Byte), exec (.load f buf) s = .next t → t.statusErr = 0 →
    buf[9]? = some n →
    ∃ (out : List Byte) (u : State), exec (.dump f) t = .next u ∧ u.results = t.results ++ [.ok (.bytes out)] ∧
      (out = buf ↔ buf.length = 12 + n.toNat)

/- READ -/

/-- 42_stream R105: the start of a READ. -/
def Obligations.ReadStartsWithAnEmptyBuffer : Prop :=
  ∀ (f : Nat) (v : Version) (s : State), f < s.ctx.length →
    decode ⟨0x1a, [.ctx f]⟩ = .ok (.read f .a) ∧ decode ⟨0x5a, [.ctx f]⟩ = .ok (.read f .b) ∧
    exec (.read f v) s = .next { s with rxBuf := [], rx := .accumulating f v }

/-- 42_stream R106, 60_exceptions R121, R123: the arms of a READ step that do not reach an end marker, and the full buffer. -/
def Obligations.ReadStepTakesASymbol : Prop :=
  ∀ (s : State) (f : Nat) (v : Version), s.rx = .accumulating f v → s.resetLine.head? ≠ some true →
    (s.nextSymbol = .noByte → step s = .next { s with
      source := s.source.drop 1, rxTaken := s.rxTaken + 1, resetLine := s.resetLine.tail
      rx := .idle, statusErr := 3, results := s.results ++ [.error .timeoutError] }) ∧
    (s.nextSymbol = .byte 0xfe → step s = .next { s with
      source := s.source.drop 1, rxTaken := s.rxTaken + 1, resetLine := s.resetLine.tail }) ∧
    (∀ b : Byte, s.nextSymbol = .byte b → b ≠ 0xfe → s.rxBufMax = some s.rxBuf.length → step s = .next { s with
      source := s.source.drop 1, rxTaken := s.rxTaken + 1, resetLine := s.resetLine.tail
      rx := .idle, statusErr := 5, results := s.results ++ [.error .overflowFault] }) ∧
    (∀ b : Byte, s.nextSymbol = .byte b → b ≠ 0xfe → b ≠ 0x16 → s.rxBufMax ≠ some s.rxBuf.length → step s = .next { s with
      source := s.source.drop 1, rxTaken := s.rxTaken + 1, resetLine := s.resetLine.tail
      rxBuf := s.rxBuf ++ [b] })

/-- 42_stream R106, R110; 60_exceptions R133: the appended end marker ends the READ with the outcome of LOAD into a fresh frame of
version v, and that frame is copied to `F[f]` only when LOAD returned Ok. -/
def Obligations.ReadEndsByLoadingATemporary : Prop :=
  ∀ (s : State) (f : Nat) (v : Version), s.rx = .accumulating f v → s.resetLine.head? ≠ some true → f < s.ctx.length →
    s.nextSymbol = .byte 0x16 → s.rxBufMax ≠ some s.rxBuf.length →
    ∃ (L : Frame) (w : State),
      exec (.load 0 (s.rxBuf ++ [0x16])) { s with ctx := [freshFrame s.ctrlDefault v], rx := .idle } = .next w ∧
      w.ctx = [L] ∧
      step s = .next { s with
        source := s.source.drop 1, rxTaken := s.rxTaken + 1, resetLine := s.resetLine.tail
        rxBuf := s.rxBuf ++ [0x16], rx := .idle, acc := w.acc, statusErr := w.statusErr, results := w.results
        ctx := if w.statusErr = 0 then s.ctx.set f L else s.ctx }

/-- 42_stream R107: a READ consumes exactly the symbols through the first end marker; its outcome is that of LOAD of the bytes among
them that are no wake bytes, delivered as in R106. -/
def Obligations.ReadConsumesThroughTheFirstMarker : Prop :=
  ∀ (s : State) (f : Nat) (v : Version) (l rest : List Symbol), s.rx = .accumulating f v → s.rxBuf = [] → s.resetLine = [] →
    f < s.ctx.length → endless l = true → s.source = l ++ .byte 0x16 :: rest → s.holds ((keptBytes l).length + 1) = true →
    ∃ (L : Frame) (w : State),
      exec (.load 0 (keptBytes l ++ [0x16])) { s with ctx := [freshFrame s.ctrlDefault v], rx := .idle } = .next w ∧
      w.ctx = [L] ∧
      run (l.length + 1) s = .next { s with
        source := rest, rxTaken := s.rxTaken + l.length + 1
        rxBuf := keptBytes l ++ [0x16], rx := .idle, acc := w.acc, statusErr := w.statusErr, results := w.results
        ctx := if w.statusErr = 0 then s.ctx.set f L else s.ctx }

/-- 42_stream R109: a stream that signals no byte before an end marker gives TimeoutError and no frame. -/
def Obligations.TimeoutYieldsNoFrame : Prop :=
  ∀ (s : State) (f : Nat) (v : Version) (l rest : List Symbol), s.rx = .accumulating f v → s.rxBuf = [] → s.resetLine = [] →
    endless l = true → s.source = l ++ .noByte :: rest → s.holds (keptBytes l).length = true →
    run (l.length + 1) s = .next { s with
      source := rest, rxTaken := s.rxTaken + l.length + 1, rxBuf := keptBytes l
      rx := .idle, statusErr := 3, results := s.results ++ [.error .timeoutError] }

/-- 42_stream R107, 60_exceptions R123: with a buffer of M bytes, non-wake byte number M + 1 ends the READ with OverflowFault, taken
from the source and not stored. -/
def Obligations.OverflowEndsTheReadAtTheByteThatDoesNotFit : Prop :=
  ∀ (s : State) (f : Nat) (v : Version) (l rest : List Symbol) (b : Byte), s.rx = .accumulating f v → s.rxBuf = [] →
    s.resetLine = [] → endless l = true → b ≠ 0xfe → s.source = l ++ .byte b :: rest →
    s.rxBufMax = some (keptBytes l).length →
    run (l.length + 1) s = .next { s with
      source := rest, rxTaken := s.rxTaken + l.length + 1, rxBuf := keptBytes l
      rx := .idle, statusErr := 5, results := s.results ++ [.error .overflowFault] }

/-- 42_stream R108: two streams that differ only in wake bytes give READ the same outcome and the same state of the block; only how many
symbols were taken differs. -/
def Obligations.WakeBytesAreTransparentToRead : Prop :=
  ∀ (s : State) (f : Nat) (v : Version) (x : Symbol) (l₁ l₂ rest : List Symbol),
    s.rx = .accumulating f v → s.rxBuf = [] → s.resetLine = [] → f < s.ctx.length →
    endless l₁ = true → endless l₂ = true → x = .noByte ∨ x = .byte 0x16 →
    l₁.filter (· ≠ .byte 0xfe) = l₂.filter (· ≠ .byte 0xfe) → s.holds ((keptBytes l₁).length + 1) = true →
    ∃ t₁ t₂ : State, run (l₁.length + 1) { s with source := l₁ ++ x :: rest } = .next t₁ ∧
      run (l₂.length + 1) { s with source := l₂ ++ x :: rest } = .next t₂ ∧
      t₁.rx = .idle ∧ t₁.results.length = s.results.length + 1 ∧ { t₁ with rxTaken := 0 } = { t₂ with rxTaken := 0 }

/-- 70_reset R152: while the source delivers neither `None` nor an end marker a READ does not end, whatever the number of symbols: with
an unbounded buffer, and with any buffer when all of them are wake bytes. -/
def Obligations.ReadNeverEndsWithoutAMarker : Prop :=
  ∀ (s : State) (f : Nat) (v : Version) (l rest : List Symbol), s.rx = .accumulating f v → s.resetLine = [] →
    endless l = true → s.source = l ++ rest → s.rxBufMax = none ∨ keptBytes l = [] →
    run l.length s = .next { s with
      source := rest, rxTaken := s.rxTaken + l.length, rxBuf := s.rxBuf ++ keptBytes l }

/-- 42_stream R110: a step of a READ that changes any context ends the READ Ok, on a buffer that ends with the end marker, and changes
the READ's own context alone. -/
def Obligations.NoPartialFrameIsDelivered : Prop :=
  ∀ (s t : State) (f : Nat) (v : Version), s.rx = .accumulating f v → s.resetLine.head? ≠ some true → step s = .next t →
    t.ctx ≠ s.ctx →
    t.rx = .idle ∧ t.statusErr = 0 ∧ t.results = s.results ++ [.ok .unit] ∧ t.rxBuf = s.rxBuf ++ [0x16] ∧
    s.nextSymbol = .byte 0x16 ∧ ∃ F, t.ctx = s.ctx.set f F ∧ F.raw = some t.rxBuf ∧ F.pver = v

/- WRITE -/

/-- 42_stream R112: WRITE sends DUMP's bytes, after four wake bytes when asked to, in one TxWrite, and changes nothing else of the
frames. -/
def Obligations.WriteSendsThePreambleAndTheDump : Prop :=
  ∀ (f : Nat) (s : State) (F : Frame), s.ctx[f]? = some F → F.dlen ≤ 255 →
    decode ⟨0x9b, [.ctx f]⟩ = .ok (.write f true) ∧ decode ⟨0x1b, [.ctx f]⟩ = .ok (.write f false) ∧
    ∃ (out : List Byte) (k : Byte), out.length = 12 + F.dlen ∧
      exec (.dump f) s = .next { s with acc := k, results := s.results ++ [.ok (.bytes out)] } ∧
      ∀ wake : Bool, exec (.write f wake) s = .next { s with
        acc := k, sink := s.sink ++ [(if wake then [0xfe, 0xfe, 0xfe, 0xfe] else []) ++ out]
        results := s.results ++ [.ok .unit] }

/-- 42_stream R114, 00_scope R8, 30_encoding R73: DISCOVER sends exactly the discovery request. -/
def Obligations.DiscoverSendsTheDiscoveryRequest : Prop :=
  ∀ (f : Nat) (s : State), f < s.ctx.length → s.rx = .idle → s.resetLine = [] →
    ∃ t : State, run 4 { s with pending := (discover f).map encode ++ s.pending } = .next t ∧
      t.sink = s.sink ++
        [[0xfe, 0xfe, 0xfe, 0xfe, 0x68, 0xaa, 0xaa, 0xaa, 0xaa, 0xaa, 0xaa, 0x68, 0x13, 0x00, 0xdf, 0x16]] ∧
      t.pending = s.pending

/-- 42_stream R113, the direction the other rules give: a frame whose bytes hold no wake byte and no end marker but the last goes through
WRITE and READ unharmed, with the two exceptions of 41_frame R104. -/
def Obligations.WriteThenReadReturnsTheFrame : Prop :=
  ∀ (f g : Nat) (v : Version) (wake : Bool) (s t : State) (F : Frame) (sent : List Byte) (rest : List Symbol),
    s.ctx[f]? = some F → F.dlen ≤ 255 → g < s.ctx.length → s.holds 267 = true →
    WAKE ∉ dumpFrame F → END ∉ (dumpFrame F).dropLast →
    exec (.write f wake) s = .next t → t.sink = s.sink ++ [sent] →
    ∃ u : State,
      run sent.length { t with
        rx := .accumulating g v, rxBuf := [], source := sent.map .byte ++ rest, resetLine := [] } = .next u ∧
      u.rx = .idle ∧ u.statusErr = 0 ∧ u.source = rest ∧ u.results = t.results ++ [.ok .unit] ∧
      u.ctx = s.ctx.set g
        { addr := some (F.addr.getD ⟨0xaa, 0xaa, 0xaa, 0xaa, 0xaa, 0xaa⟩), ctrl := F.ctrl
          data := some (F.data.getD []), raw := some (dumpFrame F), pver := v }

/-- 42_stream R106, 41_frame R100 against the other direction of 42_stream R113: there is a frame that holds an end marker before its last
byte (its checksum) and still comes back through READ with its address, control and data (log entry 9). -/
def Obligations.SomeFrameSurvivesAnInnerMarker : Prop :=
  ∃ (F L : Frame) (s t : State), END ∈ (dumpFrame F).dropLast ∧ s.rx = .accumulating 0 .a ∧ s.rxBuf = [] ∧
    s.source = (dumpFrame F).map .byte ∧ run 12 s = .next t ∧ t.rx = .idle ∧ t.statusErr = 0 ∧ t.ctx = [L] ∧
    L.addr = F.addr ∧ L.ctrl = F.ctrl ∧ L.data = F.data

/- RESET -/

/-- 43_system R115, 70_reset R139: the operation, and the reset input, which also ends a READ in progress, without an outcome and
without writing its frame. Source and sink are untouched. -/
def Obligations.ResetMakesEveryContextFresh : Prop :=
  decode ⟨0x1f, []⟩ = .ok .reset ∧
  ∀ s : State, ∃ C : List Frame,
    C = List.replicate s.ctx.length
      { addr := none
        ctrl := ⟨s.ctrlDefault.getLsbD 7, s.ctrlDefault.getLsbD 6, s.ctrlDefault.getLsbD 5,
          BitVec.ofNat 5 (s.ctrlDefault.toNat % 32)⟩
        data := none, raw := none, pver := .a } ∧
    exec .reset s = .next { s with
      ctx := C, rxBuf := [], rx := .idle, acc := 0, statusErr := 0, results := s.results ++ [.ok .unit] } ∧
    ∀ l : List Bool, s.resetLine = true :: l →
      step s = .next { s with ctx := C, rxBuf := [], rx := .idle, acc := 0, statusErr := 0, resetLine := l }

/-- 10_state R32, 70_reset R138; the parameters are within R9. The host's side (`pending`, `source`, `sink`, `results`) is the model's
choice, log entries 3 to 5, and is not claimed here. -/
def Obligations.ResetStateIsThatOfR32 : Prop :=
  1 ≤ State.reset.ctx.length ∧
  (∀ F ∈ State.reset.ctx, F = { addr := none, ctrl := ctrlDec State.reset.ctrlDefault, data := none, raw := none, pver := .a } ∧
    F.addrP = false ∧ F.dataP = false ∧ F.rawP = false ∧ F.dlen = 0) ∧
  State.reset.rxBuf = [] ∧ State.reset.rx = .idle ∧ State.reset.acc = 0 ∧ State.reset.statusErr = 0 ∧
  (∀ m, State.reset.rxBufMax = some m → 267 ≤ m)

/- The whole machine -/

/-- 70_reset R157, 10_state R13, R16, R23, R27, 42_stream R106: every step keeps every register within its type, and keeps the reader's
buffer free of wake bytes and, while a READ runs, of end markers. -/
def Obligations.EveryStepKeepsTheStateSound : Prop :=
  ∀ s t : State, s.sound = true → step s = .next t → t.sound = true

/-- 10_state R32: the invariant holds right after reset. -/
def Obligations.ResetStateIsSound : Prop := State.reset.sound = true

/-- 10_state R31, 20_memory R38, R46, 70_reset R156: no step changes a parameter or the number of contexts, takes back an outcome or a
sent sequence, or takes more than one symbol, from anywhere but the front of the source. -/
def Obligations.HistoriesOnlyGrowAndParametersStay : Prop :=
  ∀ s t : State, step s = .next t →
    t.rxBufMax = s.rxBufMax ∧ t.ctrlDefault = s.ctrlDefault ∧ t.ctx.length = s.ctx.length ∧
    (t.results = s.results ∨ ∃ r, t.results = s.results ++ [r]) ∧ (t.sink = s.sink ∨ ∃ x, t.sink = s.sink ++ [x]) ∧
    ((t.source = s.source ∧ t.rxTaken = s.rxTaken) ∨ (t.source = s.source.drop 1 ∧ t.rxTaken = s.rxTaken + 1))

/-- 10_state R27, 60_exceptions R124: no operation but LOAD and RESET writes `STATUS.ERR` at once, and a step of a READ writes it exactly
when the READ ends; it then holds the code of the outcome handed over. -/
def Obligations.StatusErrHoldsTheLatestLoadOrReadOutcome : Prop :=
  (∀ (i : Instr) (s t : State), exec i s = .next t → (∀ f b, i ≠ .load f b) → i ≠ .reset → t.statusErr = s.statusErr) ∧
  (∀ (f : Nat) (b : List Byte) (s t : State), exec (.load f b) s = .next t →
    (t.results = s.results ++ [.ok .unit] ∧ t.statusErr = 0) ∨
    ∃ e, t.results = s.results ++ [.error e] ∧ t.statusErr = errorCode e) ∧
  ∀ (s t : State) (f : Nat) (v : Version), s.rx = .accumulating f v → s.resetLine.head? ≠ some true → step s = .next t →
    (t.rx = .accumulating f v ∧ t.statusErr = s.statusErr ∧ t.results = s.results) ∨
    (t.rx = .idle ∧ t.results = s.results ++ [.ok .unit] ∧ t.statusErr = 0) ∨
    (t.rx = .idle ∧ ∃ e, t.results = s.results ++ [.error e] ∧ t.statusErr = errorCode e)

/-- 10_state R17, 70_reset R146: the raw bytes of a context outlive every operation but FNEW, LOAD and RESET (READ writes them when it ends),
so they need not agree with the fields. -/
def Obligations.RawBytesOutliveFieldWrites : Prop :=
  ∀ (i : Instr) (s t : State), exec i s = .next t → (∀ f v, i ≠ .fnew f v) → (∀ f b, i ≠ .load f b) → i ≠ .reset →
    ∀ f : Nat, (t.ctx[f]?).map (·.raw) = (s.ctx[f]?).map (·.raw)

/-- 60_exceptions R118; 70_reset R157: in a state within its types every well-formed operation on an existing context answers a next
state, and no step of a sound state stops with a fault. -/
def Obligations.WellFormedOperationsComplete : Prop :=
  (∀ (i : Instr) (s : State), s.typed = true → i.wellFormed = true → i.inContext s.ctx.length = true →
    ∃ t : State, exec i s = .next t) ∧
  ∀ (s : State) (r : Fault), s.sound = true → step s ≠ .fault r

/-- 70_reset R157: an operation's outcome, the frames, the reader and what is sent do not depend on `ACC` or `STATUS.ERR`. The first
clause is about an operation as it is issued (of READ, its start), the second about any step, the steps of a READ in progress and its
end among them. -/
def Obligations.ResultsIgnoreAccAndStatus : Prop :=
  (∀ (i : Instr) (s t : State) (a : Byte) (e : BitVec 3), exec i s = .next t →
    ∃ t' : State, exec i { s with acc := a, statusErr := e } = .next t' ∧
      t' = { t with acc := t'.acc, statusErr := t'.statusErr } ∧ (t'.acc = t.acc ∨ (t'.acc = a ∧ t.acc = s.acc)) ∧
      (t'.statusErr = t.statusErr ∨ (t'.statusErr = e ∧ t.statusErr = s.statusErr))) ∧
  ∀ (s t : State) (a : Byte) (e : BitVec 3), step s = .next t →
    ∃ t' : State, step { s with acc := a, statusErr := e } = .next t' ∧
      t' = { t with acc := t'.acc, statusErr := t'.statusErr } ∧ (t'.acc = t.acc ∨ (t'.acc = a ∧ t.acc = s.acc)) ∧
      (t'.statusErr = t.statusErr ∨ (t'.statusErr = e ∧ t.statusErr = s.statusErr))

/- Host reads and function tables -/

/-- 10_state R34; 93_implementation_defined U15: a host read of an absent value is refused, a present one is its bytes and its string.
The last clause, that every host read is refused while a READ is in progress, is the model's choice (DEDUCED, log entry 11): R34 only
allows reads while no operation is in progress, and U14 speaks of operations. -/
def Obligations.HostReadsGiveNoValueForAbsentRegisters : Prop :=
  (∀ (s : State) (f : Nat) (F : Frame), s.rx = .idle → s.ctx[f]? = some F →
    (F.addr = none → hostRead s (.addr f) = .error .absentRegister) ∧
    (F.data = none → hostRead s (.data f) = .error .absentRegister) ∧
    (F.raw = none → hostRead s (.raw f) = .error .absentRegister) ∧
    (∀ a, F.addr = some a → hostRead s (.addr f) = .ok (.bytes [a.b0, a.b1, a.b2, a.b3, a.b4, a.b5]) ∧
      ∃ t, addrString s f = .ok t ∧ t.length = 12 ∧ unhex t = some [a.b0, a.b1, a.b2, a.b3, a.b4, a.b5]) ∧
    (∀ d, F.data = some d → hostRead s (.data f) = .ok (.bytes d) ∧
      ∃ t, dataString s f = .ok t ∧ t.length = 2 * F.dlen ∧ unhex t = some d) ∧
    ∀ r, F.raw = some r → hostRead s (.raw f) = .ok (.bytes r)) ∧
  ∀ (s : State) (r : Reg) (f : Nat) (v : Version), s.rx = .accumulating f v → hostRead s r = .error .operationInProgress

/-- 40_field_codecs R88, 30_encoding R64: the two lookups are inverse on a legal table, each version has exactly its own names, and the
machine's own table is legal, with read-address of Version A at 0x13, and 0x13 names it. -/
def Obligations.FunctionTableLookupsAreInverse : Prop :=
  (∀ (t : FuncTable) (v : Version) (n : FuncName) (c : BitVec 5), t.legal = true →
    (funcCode t v n = some c ↔ funcName t v c = some n)) ∧
  (∀ (t : FuncTable) (v : Version) (n : FuncName), t.legal = true →
    ((funcCode t v n).isSome = true ↔ n ∈ functionNames v)) ∧
  Config.funcTable.legal = true ∧ funcCode Config.funcTable .a .readAddress = some 0x13 ∧
  funcName Config.funcTable .a 0x13 = some .readAddress
end

