-- ==== Sys2Proof/Laws/Codecs.lean ====
section
/-! SUPPORT. The small lemmas of the pure codecs. -/

namespace Sys2Proof

@[simp] theorem sum8_nil : sum8 [] = 0 := rfl

theorem foldl_add_start (s : List Byte) (a : Byte) : s.foldl (fun acc b => acc + b) a = a + sum8 s := by
  induction s generalizing a with
  | nil => simp [sum8]
  | cons b s ih =>
    have h : sum8 (b :: s) = b + sum8 s := by
      show List.foldl _ (0 + b) s = _
      rw [ih]; simp
    rw [List.foldl_cons, ih, h, BitVec.add_assoc]

@[simp] theorem sum8_cons (b : Byte) (s : List Byte) : sum8 (b :: s) = b + sum8 s := by
  show List.foldl _ (0 + b) s = _
  rw [foldl_add_start]; simp

@[simp] theorem slice_zero (s : List Byte) (j : Nat) : slice s 0 j = s.take j := by simp [slice]

@[simp] theorem Addr.rev_rev (a : Addr) : a.rev.rev = a := rfl

@[simp] theorem Addr.ofBytes_bytes (a : Addr) : Addr.ofBytes a.bytes = some a := rfl

@[simp] theorem Addr.bytes_length (a : Addr) : a.bytes.length = 6 := rfl

theorem Addr.ofBytes_eq_some {s : List Byte} {a : Addr} (h : Addr.ofBytes s = some a) : s = a.bytes := by
  unfold Addr.ofBytes at h
  split at h
  · cases h; rfl
  · cases h

theorem Addr.ofBytes_isSome (s : List Byte) : (Addr.ofBytes s).isSome = decide (s.length = 6) := by
  unfold Addr.ofBytes
  split
  · rfl
  · rename_i h
    symm
    simp only [Option.isSome_none, decide_eq_false_iff_not]
    intro hl
    match s, hl with
    | [b0, b1, b2, b3, b4, b5], _ => exact h b0 b1 b2 b3 b4 b5 rfl

@[simp] theorem dataEnc_length (d : List Byte) : (dataEnc (some d)).length = d.length := by simp [dataEnc]

@[simp] theorem dataEnc_none : dataEnc none = [] := rfl

/-- `DATAENC_S` of a string that stands for bytes: the wire form, within 255 bytes. -/
theorem dataEncString_of_unhex {t : List Char} {d : List Byte} (h : unhex t = some d) :
    dataEncString t = if d.length ≤ N_MAX then some (dataEnc (some d)) else none := by simp [dataEncString, h]

@[simp] theorem dataDec_length (w : List Byte) : (dataDec w).length = w.length := by simp [dataDec]

end Sys2Proof

namespace Sys2Proof.Machine

/-- LOAD finds its fields exactly in the buffers that have them all (41_frame R100 corner case (d)). -/
theorem loadFields_isSome (buf : List Byte) :
    (loadFields buf).isSome = true ↔ ∃ n, buf[9]? = some n ∧ 10 + n.toNat ≤ buf.length := by
  by_cases hlen : 10 ≤ buf.length
  · obtain ⟨w, hw⟩ : ∃ w, Addr.ofBytes (slice buf 1 7) = some w := by
      rw [← Option.isSome_iff_exists, Addr.ofBytes_isSome]
      simp [slice]
      omega
    have h8 : buf[8]? = some buf[8] := List.getElem?_eq_getElem (by omega)
    have h9 : buf[9]? = some buf[9] := List.getElem?_eq_getElem (by omega)
    by_cases hn : 10 + buf[9].toNat ≤ buf.length <;> simp [loadFields, hw, h8, h9, hn]
  · have h9 : buf[9]? = none := List.getElem?_eq_none (by omega)
    unfold loadFields
    simp [h9]

/-- What LOAD takes out of a buffer, field by field. -/
theorem loadFields_eq_some {buf : List Byte} {fl : Fields} (h : loadFields buf = some fl) :
    ∃ w c n, Addr.ofBytes (slice buf 1 7) = some w ∧ buf[8]? = some c ∧ buf[9]? = some n ∧
      10 + n.toNat ≤ buf.length ∧ fl.addr = addrDec w ∧ fl.ctrl = ctrlDec c ∧
      fl.data = dataDec (slice buf 10 (10 + n.toNat)) ∧ fl.data.length = n.toNat := by
  unfold loadFields at h
  split at h
  · rename_i w c n hw hc hn
    split at h
    · rename_i hle
      cases h
      refine ⟨w, c, n, hw, hc, hn, hle, rfl, rfl, rfl, ?_⟩
      simp [slice]
      omega
    · cases h
  · cases h

end Sys2Proof.Machine
end

