-- ==== Sys2Proof/Laws/State.lean ====
section
/-! SUPPORT. Each field after each update of the state (Machine/Ops.lean). -/

namespace Sys2Proof.Machine

@[simp] theorem State.setFrame_ctx (s : State) (f : Nat) (F : Frame) : (s.setFrame f F).ctx = s.ctx.set f F := rfl
@[simp] theorem State.setFrame_rxBuf (s : State) (f : Nat) (F : Frame) : (s.setFrame f F).rxBuf = s.rxBuf := rfl
@[simp] theorem State.setFrame_rx (s : State) (f : Nat) (F : Frame) : (s.setFrame f F).rx = s.rx := rfl
@[simp] theorem State.setFrame_acc (s : State) (f : Nat) (F : Frame) : (s.setFrame f F).acc = s.acc := rfl
@[simp] theorem State.setFrame_statusErr (s : State) (f : Nat) (F : Frame) : (s.setFrame f F).statusErr = s.statusErr := rfl
@[simp] theorem State.setFrame_rxBufMax (s : State) (f : Nat) (F : Frame) : (s.setFrame f F).rxBufMax = s.rxBufMax := rfl
@[simp] theorem State.setFrame_ctrlDefault (s : State) (f : Nat) (F : Frame) : (s.setFrame f F).ctrlDefault = s.ctrlDefault := rfl
@[simp] theorem State.setFrame_pending (s : State) (f : Nat) (F : Frame) : (s.setFrame f F).pending = s.pending := rfl
@[simp] theorem State.setFrame_source (s : State) (f : Nat) (F : Frame) : (s.setFrame f F).source = s.source := rfl
@[simp] theorem State.setFrame_rxTaken (s : State) (f : Nat) (F : Frame) : (s.setFrame f F).rxTaken = s.rxTaken := rfl
@[simp] theorem State.setFrame_sink (s : State) (f : Nat) (F : Frame) : (s.setFrame f F).sink = s.sink := rfl
@[simp] theorem State.setFrame_results (s : State) (f : Nat) (F : Frame) : (s.setFrame f F).results = s.results := rfl
@[simp] theorem State.setFrame_resetLine (s : State) (f : Nat) (F : Frame) : (s.setFrame f F).resetLine = s.resetLine := rfl

@[simp] theorem State.setAcc_ctx (s : State) (a : Byte) : (s.setAcc a).ctx = s.ctx := rfl
@[simp] theorem State.setAcc_rxBuf (s : State) (a : Byte) : (s.setAcc a).rxBuf = s.rxBuf := rfl
@[simp] theorem State.setAcc_rx (s : State) (a : Byte) : (s.setAcc a).rx = s.rx := rfl
@[simp] theorem State.setAcc_acc (s : State) (a : Byte) : (s.setAcc a).acc = a := rfl
@[simp] theorem State.setAcc_statusErr (s : State) (a : Byte) : (s.setAcc a).statusErr = s.statusErr := rfl
@[simp] theorem State.setAcc_rxBufMax (s : State) (a : Byte) : (s.setAcc a).rxBufMax = s.rxBufMax := rfl
@[simp] theorem State.setAcc_ctrlDefault (s : State) (a : Byte) : (s.setAcc a).ctrlDefault = s.ctrlDefault := rfl
@[simp] theorem State.setAcc_pending (s : State) (a : Byte) : (s.setAcc a).pending = s.pending := rfl
@[simp] theorem State.setAcc_source (s : State) (a : Byte) : (s.setAcc a).source = s.source := rfl
@[simp] theorem State.setAcc_rxTaken (s : State) (a : Byte) : (s.setAcc a).rxTaken = s.rxTaken := rfl
@[simp] theorem State.setAcc_sink (s : State) (a : Byte) : (s.setAcc a).sink = s.sink := rfl
@[simp] theorem State.setAcc_results (s : State) (a : Byte) : (s.setAcc a).results = s.results := rfl
@[simp] theorem State.setAcc_resetLine (s : State) (a : Byte) : (s.setAcc a).resetLine = s.resetLine := rfl

@[simp] theorem State.setRxBuf_ctx (s : State) (b : List Byte) : (s.setRxBuf b).ctx = s.ctx := rfl
@[simp] theorem State.setRxBuf_rxBuf (s : State) (b : List Byte) : (s.setRxBuf b).rxBuf = b := rfl
@[simp] theorem State.setRxBuf_rx (s : State) (b : List Byte) : (s.setRxBuf b).rx = s.rx := rfl
@[simp] theorem State.setRxBuf_acc (s : State) (b : List Byte) : (s.setRxBuf b).acc = s.acc := rfl
@[simp] theorem State.setRxBuf_statusErr (s : State) (b : List Byte) : (s.setRxBuf b).statusErr = s.statusErr := rfl
@[simp] theorem State.setRxBuf_rxBufMax (s : State) (b : List Byte) : (s.setRxBuf b).rxBufMax = s.rxBufMax := rfl
@[simp] theorem State.setRxBuf_ctrlDefault (s : State) (b : List Byte) : (s.setRxBuf b).ctrlDefault = s.ctrlDefault := rfl
@[simp] theorem State.setRxBuf_pending (s : State) (b : List Byte) : (s.setRxBuf b).pending = s.pending := rfl
@[simp] theorem State.setRxBuf_source (s : State) (b : List Byte) : (s.setRxBuf b).source = s.source := rfl
@[simp] theorem State.setRxBuf_rxTaken (s : State) (b : List Byte) : (s.setRxBuf b).rxTaken = s.rxTaken := rfl
@[simp] theorem State.setRxBuf_sink (s : State) (b : List Byte) : (s.setRxBuf b).sink = s.sink := rfl
@[simp] theorem State.setRxBuf_results (s : State) (b : List Byte) : (s.setRxBuf b).results = s.results := rfl
@[simp] theorem State.setRxBuf_resetLine (s : State) (b : List Byte) : (s.setRxBuf b).resetLine = s.resetLine := rfl

@[simp] theorem State.setRx_ctx (s : State) (r : RxState) : (s.setRx r).ctx = s.ctx := rfl
@[simp] theorem State.setRx_rxBuf (s : State) (r : RxState) : (s.setRx r).rxBuf = s.rxBuf := rfl
@[simp] theorem State.setRx_rx (s : State) (r : RxState) : (s.setRx r).rx = r := rfl
@[simp] theorem State.setRx_acc (s : State) (r : RxState) : (s.setRx r).acc = s.acc := rfl
@[simp] theorem State.setRx_statusErr (s : State) (r : RxState) : (s.setRx r).statusErr = s.statusErr := rfl
@[simp] theorem State.setRx_rxBufMax (s : State) (r : RxState) : (s.setRx r).rxBufMax = s.rxBufMax := rfl
@[simp] theorem State.setRx_ctrlDefault (s : State) (r : RxState) : (s.setRx r).ctrlDefault = s.ctrlDefault := rfl
@[simp] theorem State.setRx_pending (s : State) (r : RxState) : (s.setRx r).pending = s.pending := rfl
@[simp] theorem State.setRx_source (s : State) (r : RxState) : (s.setRx r).source = s.source := rfl
@[simp] theorem State.setRx_rxTaken (s : State) (r : RxState) : (s.setRx r).rxTaken = s.rxTaken := rfl
@[simp] theorem State.setRx_sink (s : State) (r : RxState) : (s.setRx r).sink = s.sink := rfl
@[simp] theorem State.setRx_results (s : State) (r : RxState) : (s.setRx r).results = s.results := rfl
@[simp] theorem State.setRx_resetLine (s : State) (r : RxState) : (s.setRx r).resetLine = s.resetLine := rfl

@[simp] theorem State.setStatus_ctx (s : State) (c : BitVec 3) : (s.setStatus c).ctx = s.ctx := rfl
@[simp] theorem State.setStatus_rxBuf (s : State) (c : BitVec 3) : (s.setStatus c).rxBuf = s.rxBuf := rfl
@[simp] theorem State.setStatus_rx (s : State) (c : BitVec 3) : (s.setStatus c).rx = s.rx := rfl
@[simp] theorem State.setStatus_acc (s : State) (c : BitVec 3) : (s.setStatus c).acc = s.acc := rfl
@[simp] theorem State.setStatus_statusErr (s : State) (c : BitVec 3) : (s.setStatus c).statusErr = c := rfl
@[simp] theorem State.setStatus_rxBufMax (s : State) (c : BitVec 3) : (s.setStatus c).rxBufMax = s.rxBufMax := rfl
@[simp] theorem State.setStatus_ctrlDefault (s : State) (c : BitVec 3) : (s.setStatus c).ctrlDefault = s.ctrlDefault := rfl
@[simp] theorem State.setStatus_pending (s : State) (c : BitVec 3) : (s.setStatus c).pending = s.pending := rfl
@[simp] theorem State.setStatus_source (s : State) (c : BitVec 3) : (s.setStatus c).source = s.source := rfl
@[simp] theorem State.setStatus_rxTaken (s : State) (c : BitVec 3) : (s.setStatus c).rxTaken = s.rxTaken := rfl
@[simp] theorem State.setStatus_sink (s : State) (c : BitVec 3) : (s.setStatus c).sink = s.sink := rfl
@[simp] theorem State.setStatus_results (s : State) (c : BitVec 3) : (s.setStatus c).results = s.results := rfl
@[simp] theorem State.setStatus_resetLine (s : State) (c : BitVec 3) : (s.setStatus c).resetLine = s.resetLine := rfl

@[simp] theorem State.report_ctx (s : State) (r : Result) : (s.report r).ctx = s.ctx := rfl
@[simp] theorem State.report_rxBuf (s : State) (r : Result) : (s.report r).rxBuf = s.rxBuf := rfl
@[simp] theorem State.report_rx (s : State) (r : Result) : (s.report r).rx = s.rx := rfl
@[simp] theorem State.report_acc (s : State) (r : Result) : (s.report r).acc = s.acc := rfl
@[simp] theorem State.report_statusErr (s : State) (r : Result) : (s.report r).statusErr = s.statusErr := rfl
@[simp] theorem State.report_rxBufMax (s : State) (r : Result) : (s.report r).rxBufMax = s.rxBufMax := rfl
@[simp] theorem State.report_ctrlDefault (s : State) (r : Result) : (s.report r).ctrlDefault = s.ctrlDefault := rfl
@[simp] theorem State.report_pending (s : State) (r : Result) : (s.report r).pending = s.pending := rfl
@[simp] theorem State.report_source (s : State) (r : Result) : (s.report r).source = s.source := rfl
@[simp] theorem State.report_rxTaken (s : State) (r : Result) : (s.report r).rxTaken = s.rxTaken := rfl
@[simp] theorem State.report_sink (s : State) (r : Result) : (s.report r).sink = s.sink := rfl
@[simp] theorem State.report_results (s : State) (r : Result) : (s.report r).results = s.results ++ [r] := rfl
@[simp] theorem State.report_resetLine (s : State) (r : Result) : (s.report r).resetLine = s.resetLine := rfl

@[simp] theorem State.txWrite_ctx (s : State) (out : List Byte) : (s.txWrite out).ctx = s.ctx := rfl
@[simp] theorem State.txWrite_rxBuf (s : State) (out : List Byte) : (s.txWrite out).rxBuf = s.rxBuf := rfl
@[simp] theorem State.txWrite_rx (s : State) (out : List Byte) : (s.txWrite out).rx = s.rx := rfl
@[simp] theorem State.txWrite_acc (s : State) (out : List Byte) : (s.txWrite out).acc = s.acc := rfl
@[simp] theorem State.txWrite_statusErr (s : State) (out : List Byte) : (s.txWrite out).statusErr = s.statusErr := rfl
@[simp] theorem State.txWrite_rxBufMax (s : State) (out : List Byte) : (s.txWrite out).rxBufMax = s.rxBufMax := rfl
@[simp] theorem State.txWrite_ctrlDefault (s : State) (out : List Byte) : (s.txWrite out).ctrlDefault = s.ctrlDefault := rfl
@[simp] theorem State.txWrite_pending (s : State) (out : List Byte) : (s.txWrite out).pending = s.pending := rfl
@[simp] theorem State.txWrite_source (s : State) (out : List Byte) : (s.txWrite out).source = s.source := rfl
@[simp] theorem State.txWrite_rxTaken (s : State) (out : List Byte) : (s.txWrite out).rxTaken = s.rxTaken := rfl
@[simp] theorem State.txWrite_sink (s : State) (out : List Byte) : (s.txWrite out).sink = s.sink ++ [out] := rfl
@[simp] theorem State.txWrite_results (s : State) (out : List Byte) : (s.txWrite out).results = s.results := rfl
@[simp] theorem State.txWrite_resetLine (s : State) (out : List Byte) : (s.txWrite out).resetLine = s.resetLine := rfl

@[simp] theorem State.setPending_ctx (s : State) (cs : List Command) : (s.setPending cs).ctx = s.ctx := rfl
@[simp] theorem State.setPending_rxBuf (s : State) (cs : List Command) : (s.setPending cs).rxBuf = s.rxBuf := rfl
@[simp] theorem State.setPending_rx (s : State) (cs : List Command) : (s.setPending cs).rx = s.rx := rfl
@[simp] theorem State.setPending_acc (s : State) (cs : List Command) : (s.setPending cs).acc = s.acc := rfl
@[simp] theorem State.setPending_statusErr (s : State) (cs : List Command) : (s.setPending cs).statusErr = s.statusErr := rfl
@[simp] theorem State.setPending_rxBufMax (s : State) (cs : List Command) : (s.setPending cs).rxBufMax = s.rxBufMax := rfl
@[simp] theorem State.setPending_ctrlDefault (s : State) (cs : List Command) : (s.setPending cs).ctrlDefault = s.ctrlDefault := rfl
@[simp] theorem State.setPending_pending (s : State) (cs : List Command) : (s.setPending cs).pending = cs := rfl
@[simp] theorem State.setPending_source (s : State) (cs : List Command) : (s.setPending cs).source = s.source := rfl
@[simp] theorem State.setPending_rxTaken (s : State) (cs : List Command) : (s.setPending cs).rxTaken = s.rxTaken := rfl
@[simp] theorem State.setPending_sink (s : State) (cs : List Command) : (s.setPending cs).sink = s.sink := rfl
@[simp] theorem State.setPending_results (s : State) (cs : List Command) : (s.setPending cs).results = s.results := rfl
@[simp] theorem State.setPending_resetLine (s : State) (cs : List Command) : (s.setPending cs).resetLine = s.resetLine := rfl

@[simp] theorem State.setResetLine_ctx (s : State) (l : List Bool) : (s.setResetLine l).ctx = s.ctx := rfl
@[simp] theorem State.setResetLine_rxBuf (s : State) (l : List Bool) : (s.setResetLine l).rxBuf = s.rxBuf := rfl
@[simp] theorem State.setResetLine_rx (s : State) (l : List Bool) : (s.setResetLine l).rx = s.rx := rfl
@[simp] theorem State.setResetLine_acc (s : State) (l : List Bool) : (s.setResetLine l).acc = s.acc := rfl
@[simp] theorem State.setResetLine_statusErr (s : State) (l : List Bool) : (s.setResetLine l).statusErr = s.statusErr := rfl
@[simp] theorem State.setResetLine_rxBufMax (s : State) (l : List Bool) : (s.setResetLine l).rxBufMax = s.rxBufMax := rfl
@[simp] theorem State.setResetLine_ctrlDefault (s : State) (l : List Bool) : (s.setResetLine l).ctrlDefault = s.ctrlDefault := rfl
@[simp] theorem State.setResetLine_pending (s : State) (l : List Bool) : (s.setResetLine l).pending = s.pending := rfl
@[simp] theorem State.setResetLine_source (s : State) (l : List Bool) : (s.setResetLine l).source = s.source := rfl
@[simp] theorem State.setResetLine_rxTaken (s : State) (l : List Bool) : (s.setResetLine l).rxTaken = s.rxTaken := rfl
@[simp] theorem State.setResetLine_sink (s : State) (l : List Bool) : (s.setResetLine l).sink = s.sink := rfl
@[simp] theorem State.setResetLine_results (s : State) (l : List Bool) : (s.setResetLine l).results = s.results := rfl
@[simp] theorem State.setResetLine_resetLine (s : State) (l : List Bool) : (s.setResetLine l).resetLine = l := rfl

@[simp] theorem State.answer_ctx (s : State) (v : Value) : (s.answer v).ctx = s.ctx := rfl
@[simp] theorem State.answer_rxBuf (s : State) (v : Value) : (s.answer v).rxBuf = s.rxBuf := rfl
@[simp] theorem State.answer_rx (s : State) (v : Value) : (s.answer v).rx = s.rx := rfl
@[simp] theorem State.answer_acc (s : State) (v : Value) : (s.answer v).acc = s.acc := rfl
@[simp] theorem State.answer_statusErr (s : State) (v : Value) : (s.answer v).statusErr = s.statusErr := rfl
@[simp] theorem State.answer_rxBufMax (s : State) (v : Value) : (s.answer v).rxBufMax = s.rxBufMax := rfl
@[simp] theorem State.answer_ctrlDefault (s : State) (v : Value) : (s.answer v).ctrlDefault = s.ctrlDefault := rfl
@[simp] theorem State.answer_pending (s : State) (v : Value) : (s.answer v).pending = s.pending := rfl
@[simp] theorem State.answer_source (s : State) (v : Value) : (s.answer v).source = s.source := rfl
@[simp] theorem State.answer_rxTaken (s : State) (v : Value) : (s.answer v).rxTaken = s.rxTaken := rfl
@[simp] theorem State.answer_sink (s : State) (v : Value) : (s.answer v).sink = s.sink := rfl
@[simp] theorem State.answer_results (s : State) (v : Value) : (s.answer v).results = s.results ++ [.ok v] := rfl
@[simp] theorem State.answer_resetLine (s : State) (v : Value) : (s.answer v).resetLine = s.resetLine := rfl

@[simp] theorem State.succeed_ctx (s : State) : (s.succeed).ctx = s.ctx := rfl
@[simp] theorem State.succeed_rxBuf (s : State) : (s.succeed).rxBuf = s.rxBuf := rfl
@[simp] theorem State.succeed_rx (s : State) : (s.succeed).rx = s.rx := rfl
@[simp] theorem State.succeed_acc (s : State) : (s.succeed).acc = s.acc := rfl
@[simp] theorem State.succeed_statusErr (s : State) : (s.succeed).statusErr = okCode := rfl
@[simp] theorem State.succeed_rxBufMax (s : State) : (s.succeed).rxBufMax = s.rxBufMax := rfl
@[simp] theorem State.succeed_ctrlDefault (s : State) : (s.succeed).ctrlDefault = s.ctrlDefault := rfl
@[simp] theorem State.succeed_pending (s : State) : (s.succeed).pending = s.pending := rfl
@[simp] theorem State.succeed_source (s : State) : (s.succeed).source = s.source := rfl
@[simp] theorem State.succeed_rxTaken (s : State) : (s.succeed).rxTaken = s.rxTaken := rfl
@[simp] theorem State.succeed_sink (s : State) : (s.succeed).sink = s.sink := rfl
@[simp] theorem State.succeed_results (s : State) : (s.succeed).results = s.results ++ [.ok .unit] := rfl
@[simp] theorem State.succeed_resetLine (s : State) : (s.succeed).resetLine = s.resetLine := rfl

@[simp] theorem State.raise_ctx (s : State) (e : OpError) : (s.raise e).ctx = s.ctx := rfl
@[simp] theorem State.raise_rxBuf (s : State) (e : OpError) : (s.raise e).rxBuf = s.rxBuf := rfl
@[simp] theorem State.raise_rx (s : State) (e : OpError) : (s.raise e).rx = s.rx := rfl
@[simp] theorem State.raise_acc (s : State) (e : OpError) : (s.raise e).acc = s.acc := rfl
@[simp] theorem State.raise_statusErr (s : State) (e : OpError) : (s.raise e).statusErr = errorCode e := rfl
@[simp] theorem State.raise_rxBufMax (s : State) (e : OpError) : (s.raise e).rxBufMax = s.rxBufMax := rfl
@[simp] theorem State.raise_ctrlDefault (s : State) (e : OpError) : (s.raise e).ctrlDefault = s.ctrlDefault := rfl
@[simp] theorem State.raise_pending (s : State) (e : OpError) : (s.raise e).pending = s.pending := rfl
@[simp] theorem State.raise_source (s : State) (e : OpError) : (s.raise e).source = s.source := rfl
@[simp] theorem State.raise_rxTaken (s : State) (e : OpError) : (s.raise e).rxTaken = s.rxTaken := rfl
@[simp] theorem State.raise_sink (s : State) (e : OpError) : (s.raise e).sink = s.sink := rfl
@[simp] theorem State.raise_results (s : State) (e : OpError) : (s.raise e).results = s.results ++ [.error e] := rfl
@[simp] theorem State.raise_resetLine (s : State) (e : OpError) : (s.raise e).resetLine = s.resetLine := rfl

@[simp] theorem State.takeSymbol_ctx (s : State) : (s.takeSymbol).ctx = s.ctx := rfl
@[simp] theorem State.takeSymbol_rxBuf (s : State) : (s.takeSymbol).rxBuf = s.rxBuf := rfl
@[simp] theorem State.takeSymbol_rx (s : State) : (s.takeSymbol).rx = s.rx := rfl
@[simp] theorem State.takeSymbol_acc (s : State) : (s.takeSymbol).acc = s.acc := rfl
@[simp] theorem State.takeSymbol_statusErr (s : State) : (s.takeSymbol).statusErr = s.statusErr := rfl
@[simp] theorem State.takeSymbol_rxBufMax (s : State) : (s.takeSymbol).rxBufMax = s.rxBufMax := rfl
@[simp] theorem State.takeSymbol_ctrlDefault (s : State) : (s.takeSymbol).ctrlDefault = s.ctrlDefault := rfl
@[simp] theorem State.takeSymbol_pending (s : State) : (s.takeSymbol).pending = s.pending := rfl
@[simp] theorem State.takeSymbol_source (s : State) : (s.takeSymbol).source = s.source.drop 1 := rfl
@[simp] theorem State.takeSymbol_rxTaken (s : State) : (s.takeSymbol).rxTaken = s.rxTaken + 1 := rfl
@[simp] theorem State.takeSymbol_sink (s : State) : (s.takeSymbol).sink = s.sink := rfl
@[simp] theorem State.takeSymbol_results (s : State) : (s.takeSymbol).results = s.results := rfl
@[simp] theorem State.takeSymbol_resetLine (s : State) : (s.takeSymbol).resetLine = s.resetLine := rfl

@[simp] theorem State.resetBlock_ctx (s : State) : (s.resetBlock).ctx = s.ctx.map (fun _ => freshFrame s.ctrlDefault .a) := rfl
@[simp] theorem State.resetBlock_rxBuf (s : State) : (s.resetBlock).rxBuf = [] := rfl
@[simp] theorem State.resetBlock_rx (s : State) : (s.resetBlock).rx = .idle := rfl
@[simp] theorem State.resetBlock_acc (s : State) : (s.resetBlock).acc = 0 := rfl
@[simp] theorem State.resetBlock_statusErr (s : State) : (s.resetBlock).statusErr = okCode := rfl
@[simp] theorem State.resetBlock_rxBufMax (s : State) : (s.resetBlock).rxBufMax = s.rxBufMax := rfl
@[simp] theorem State.resetBlock_ctrlDefault (s : State) : (s.resetBlock).ctrlDefault = s.ctrlDefault := rfl
@[simp] theorem State.resetBlock_pending (s : State) : (s.resetBlock).pending = s.pending := rfl
@[simp] theorem State.resetBlock_source (s : State) : (s.resetBlock).source = s.source := rfl
@[simp] theorem State.resetBlock_rxTaken (s : State) : (s.resetBlock).rxTaken = s.rxTaken := rfl
@[simp] theorem State.resetBlock_sink (s : State) : (s.resetBlock).sink = s.sink := rfl
@[simp] theorem State.resetBlock_results (s : State) : (s.resetBlock).results = s.results := rfl
@[simp] theorem State.resetBlock_resetLine (s : State) : (s.resetBlock).resetLine = s.resetLine := rfl

@[simp] theorem State.place_ctx (s : State) (c : Command) : (s.place c).ctx = s.ctx := rfl
@[simp] theorem State.place_rxBuf (s : State) (c : Command) : (s.place c).rxBuf = s.rxBuf := rfl
@[simp] theorem State.place_rx (s : State) (c : Command) : (s.place c).rx = .idle := rfl
@[simp] theorem State.place_acc (s : State) (c : Command) : (s.place c).acc = s.acc := rfl
@[simp] theorem State.place_statusErr (s : State) (c : Command) : (s.place c).statusErr = s.statusErr := rfl
@[simp] theorem State.place_rxBufMax (s : State) (c : Command) : (s.place c).rxBufMax = s.rxBufMax := rfl
@[simp] theorem State.place_ctrlDefault (s : State) (c : Command) : (s.place c).ctrlDefault = s.ctrlDefault := rfl
@[simp] theorem State.place_pending (s : State) (c : Command) : (s.place c).pending = c :: s.pending := rfl
@[simp] theorem State.place_source (s : State) (c : Command) : (s.place c).source = s.source := rfl
@[simp] theorem State.place_rxTaken (s : State) (c : Command) : (s.place c).rxTaken = s.rxTaken := rfl
@[simp] theorem State.place_sink (s : State) (c : Command) : (s.place c).sink = s.sink := rfl
@[simp] theorem State.place_results (s : State) (c : Command) : (s.place c).results = s.results := rfl
@[simp] theorem State.place_resetLine (s : State) (c : Command) : (s.place c).resetLine = false :: s.resetLine := rfl

/-- The code LOAD or READ leaves in `STATUS.ERR` (60_exceptions R124). -/
@[simp] theorem State.finish_statusErr (s : State) (o : Option OpError) :
    (s.finish o).statusErr = (o.map errorCode).getD okCode := by cases o <;> rfl

/-- The outcome LOAD or READ hands to the host. -/
@[simp] theorem State.finish_results (s : State) (o : Option OpError) :
    (s.finish o).results = s.results ++ [(o.map Result.error).getD (.ok .unit)] := by cases o <;> rfl

@[simp] theorem State.finish_ctx (s : State) (o : Option OpError) : (s.finish o).ctx = s.ctx := by cases o <;> rfl
@[simp] theorem State.finish_rxBuf (s : State) (o : Option OpError) : (s.finish o).rxBuf = s.rxBuf := by cases o <;> rfl
@[simp] theorem State.finish_rx (s : State) (o : Option OpError) : (s.finish o).rx = s.rx := by cases o <;> rfl
@[simp] theorem State.finish_acc (s : State) (o : Option OpError) : (s.finish o).acc = s.acc := by cases o <;> rfl
@[simp] theorem State.finish_rxBufMax (s : State) (o : Option OpError) : (s.finish o).rxBufMax = s.rxBufMax := by cases o <;> rfl
@[simp] theorem State.finish_ctrlDefault (s : State) (o : Option OpError) : (s.finish o).ctrlDefault = s.ctrlDefault := by cases o <;> rfl
@[simp] theorem State.finish_pending (s : State) (o : Option OpError) : (s.finish o).pending = s.pending := by cases o <;> rfl
@[simp] theorem State.finish_source (s : State) (o : Option OpError) : (s.finish o).source = s.source := by cases o <;> rfl
@[simp] theorem State.finish_rxTaken (s : State) (o : Option OpError) : (s.finish o).rxTaken = s.rxTaken := by cases o <;> rfl
@[simp] theorem State.finish_sink (s : State) (o : Option OpError) : (s.finish o).sink = s.sink := by cases o <;> rfl
@[simp] theorem State.finish_resetLine (s : State) (o : Option OpError) : (s.finish o).resetLine = s.resetLine := by cases o <;> rfl

/-- Reset leaves NCTX alone. -/
theorem State.resetBlock_length (s : State) : s.resetBlock.ctx.length = s.ctx.length := by simp

end Sys2Proof.Machine
end

