-- ==== Sys2Proof/Laws/Ops.lean ====
section
/-! SUPPORT. Everything each shared operation can do, said once: what it answers when it can run, and what must hold when it
answers a next state. -/

namespace Sys2Proof.Machine

theorem withFrame_of_get {f : Nat} {s : State} {k : Frame → Stepped} {F : Frame} (h : s.ctx[f]? = some F) :
    withFrame f s k = k F := by simp [withFrame, h]

theorem withFrame_out_of_range {f : Nat} {s : State} {k : Frame → Stepped} (h : s.ctx.length ≤ f) :
    withFrame f s k = .refused (.contextOutOfRange f) := by simp [withFrame, List.getElem?_eq_none h]

theorem withFrame_next {f : Nat} {s t : State} {k : Frame → Stepped} (h : withFrame f s k = .next t) :
    ∃ F, s.ctx[f]? = some F ∧ k F = .next t := by
  cases hF : s.ctx[f]? with
  | none => simp [withFrame, hF] at h
  | some F => exact ⟨F, rfl, by simpa [withFrame, hF] using h⟩

theorem assign_of_get {f : Nat} {s : State} {g : Frame → Frame} {F : Frame} (h : s.ctx[f]? = some F) :
    assign f s g = .next ((s.setFrame f (g F)).answer .unit) := withFrame_of_get h

theorem assign_next {f : Nat} {s t : State} {g : Frame → Frame} (h : assign f s g = .next t) :
    ∃ F, s.ctx[f]? = some F ∧ t = (s.setFrame f (g F)).answer .unit := by
  obtain ⟨F, hF, hk⟩ := withFrame_next h
  exact ⟨F, hF, (Host.Outcome.next.inj hk).symm⟩

theorem withDump_of_get {f : Nat} {s : State} {k : State → List Byte → Stepped} {F : Frame} (h : s.ctx[f]? = some F)
    (hd : F.dataFits = true) : withDump f s k = k (s.setAcc (sum8 (dumpBody F))) (dumpFrame F) := by
  simp [withDump, withFrame_of_get h, hd]

theorem withDump_next {f : Nat} {s t : State} {k : State → List Byte → Stepped} (h : withDump f s k = .next t) :
    ∃ F, s.ctx[f]? = some F ∧ F.dataFits = true ∧ k (s.setAcc (sum8 (dumpBody F))) (dumpFrame F) = .next t := by
  obtain ⟨F, hF, hk⟩ := withFrame_next h
  cases hd : F.dataFits with
  | false => simp [hd] at hk
  | true => exact ⟨F, hF, hd, by simpa [hd] using hk⟩

/-- LOAD's first check (41_frame R102). -/
theorem loadFrame_structure {F : Frame} {acc : Byte} {buf : List Byte} (h : structureHolds buf = false) :
    loadFrame F acc buf = ⟨F, acc, some (.structureError buf)⟩ := by simp [loadFrame, h]

/-- LOAD's second check. -/
theorem loadFrame_checksum {F : Frame} {acc : Byte} {buf : List Byte} (h : structureHolds buf = true)
    (hc : checksumHolds buf = false) :
    loadFrame F acc buf = ⟨{ F with raw := some buf }, bufferSum buf, some .checksumError⟩ := by simp [loadFrame, h, hc]

/-- LOAD's length guard. -/
theorem loadFrame_length {F : Frame} {acc : Byte} {buf : List Byte} (h : structureHolds buf = true)
    (hc : checksumHolds buf = true) (hf : loadFields buf = none) :
    loadFrame F acc buf = ⟨{ F with raw := some buf }, bufferSum buf, some .lengthFault⟩ := by simp [loadFrame, h, hc, hf]

/-- LOAD past its checks. -/
theorem loadFrame_ok {F : Frame} {acc : Byte} {buf : List Byte} {fl : Fields} (h : structureHolds buf = true)
    (hc : checksumHolds buf = true) (hf : loadFields buf = some fl) :
    loadFrame F acc buf =
      ⟨⟨some fl.addr, fl.ctrl, some fl.data, some buf, F.pver⟩, bufferSum buf, none⟩ := by simp [loadFrame, h, hc, hf]

/-- Everything LOAD can do to a frame (41_frame R100, R102). -/
theorem loadFrame_cases (F : Frame) (acc : Byte) (buf : List Byte) :
    (structureHolds buf = false ∧ loadFrame F acc buf = ⟨F, acc, some (.structureError buf)⟩) ∨
    (structureHolds buf = true ∧ checksumHolds buf = false ∧
      loadFrame F acc buf = ⟨{ F with raw := some buf }, bufferSum buf, some .checksumError⟩) ∨
    (structureHolds buf = true ∧ checksumHolds buf = true ∧ loadFields buf = none ∧
      loadFrame F acc buf = ⟨{ F with raw := some buf }, bufferSum buf, some .lengthFault⟩) ∨
    (structureHolds buf = true ∧ checksumHolds buf = true ∧ ∃ fl, loadFields buf = some fl ∧
      loadFrame F acc buf = ⟨⟨some fl.addr, fl.ctrl, some fl.data, some buf, F.pver⟩, bufferSum buf, none⟩) := by
  cases h : structureHolds buf with
  | false => exact .inl ⟨rfl, loadFrame_structure h⟩
  | true =>
    cases hc : checksumHolds buf with
    | false => exact .inr (.inl ⟨rfl, rfl, loadFrame_checksum h hc⟩)
    | true =>
      cases hf : loadFields buf with
      | none => exact .inr (.inr (.inl ⟨rfl, rfl, rfl, loadFrame_length h hc hf⟩))
      | some fl => exact .inr (.inr (.inr ⟨rfl, rfl, fl, rfl, loadFrame_ok h hc hf⟩))

/-- The symbol `RxNext` returns is the first announced one. -/
theorem nextSymbol_of_source {s : State} {x : Symbol} {l : List Symbol} (h : s.source = x :: l) : s.nextSymbol = x := by
  simp [State.nextSymbol, h]

/-- Everything a READ step can do with a byte (42_stream R106). -/
theorem readByte_cases (f : Nat) (v : Version) (b : Byte) (s : State) :
    (b = WAKE ∧ readByte f v b s = .next s) ∨
    (b ≠ WAKE ∧ s.rxFull = true ∧ readByte f v b s = .next ((s.setRx .idle).raise .overflowFault)) ∨
    (b ≠ WAKE ∧ s.rxFull = false ∧ b ≠ END ∧ readByte f v b s = .next (s.setRxBuf (s.rxBuf ++ [b]))) ∨
    (b ≠ WAKE ∧ s.rxFull = false ∧ b = END ∧ readByte f v b s = finishRead f v (s.setRxBuf (s.rxBuf ++ [b]))) := by
  by_cases hw : b = WAKE
  · exact .inl ⟨hw, by simp [readByte, hw]⟩
  · cases hfull : s.rxFull with
    | true => exact .inr (.inl ⟨hw, rfl, by simp [readByte, hw, hfull]⟩)
    | false =>
      by_cases he : b = END
      · exact .inr (.inr (.inr ⟨hw, rfl, he, by rw [readByte, if_neg hw]; simp [hfull, he]⟩))
      · exact .inr (.inr (.inl ⟨hw, rfl, he, by simp [readByte, hw, hfull, he]⟩))

/-- Everything the end of a READ can do (42_stream R106). -/
theorem finishRead_cases (f : Nat) (v : Version) (s : State) :
    (∃ e, (loadFrame (freshFrame s.ctrlDefault v) s.acc s.rxBuf).error = some e ∧
      finishRead f v s =
        .next (((s.setRx .idle).setAcc (loadFrame (freshFrame s.ctrlDefault v) s.acc s.rxBuf).acc).raise e)) ∨
    ((loadFrame (freshFrame s.ctrlDefault v) s.acc s.rxBuf).error = none ∧ f < s.ctx.length ∧
      finishRead f v s =
        .next ((((s.setRx .idle).setAcc (loadFrame (freshFrame s.ctrlDefault v) s.acc s.rxBuf).acc).setFrame f
          (loadFrame (freshFrame s.ctrlDefault v) s.acc s.rxBuf).frame).succeed)) ∨
    ((loadFrame (freshFrame s.ctrlDefault v) s.acc s.rxBuf).error = none ∧ s.ctx.length ≤ f ∧
      finishRead f v s = .fault (.readContextMissing f)) := by
  cases he : (loadFrame (freshFrame s.ctrlDefault v) s.acc s.rxBuf).error with
  | some e => exact .inl ⟨e, rfl, by simp [finishRead, he]⟩
  | none =>
    by_cases hf : f < s.ctx.length
    · exact .inr (.inl ⟨rfl, hf, by simp [finishRead, he, hf]⟩)
    · exact .inr (.inr ⟨rfl, by omega, by simp [finishRead, he, hf]⟩)

/-- Everything one step can be (20_memory R45; 43_system R115): a reset, a READ's next symbol, nothing, a refused command, or the
next operation. The state it acts on has the reset input's sample taken off. -/
theorem step_cases (s : State) :
    (∃ l, s.resetLine = true :: l ∧ step s = .next (s.setResetLine l).resetBlock) ∨
    (s.resetLine.head? ≠ some true ∧ ∃ s', s' = s.setResetLine (s.resetLine.drop 1) ∧
      ((∃ f v, s.rx = .accumulating f v ∧ step s = readStep f v s') ∨
       (s.rx = .idle ∧ s.pending = [] ∧ step s = .next s') ∨
       (∃ c cs e, s.rx = .idle ∧ s.pending = c :: cs ∧ decode c = .error e ∧ step s = .refused (.undecodable e)) ∨
       (∃ c cs i, s.rx = .idle ∧ s.pending = c :: cs ∧ decode c = .ok i ∧ step s = exec i (s'.setPending cs)))) := by
  have key : ∀ s' : State, s'.rx = s.rx → s'.pending = s.pending → step s = proceed s' →
      ((∃ f v, s.rx = .accumulating f v ∧ step s = readStep f v s') ∨
       (s.rx = .idle ∧ s.pending = [] ∧ step s = .next s') ∨
       (∃ c cs e, s.rx = .idle ∧ s.pending = c :: cs ∧ decode c = .error e ∧ step s = .refused (.undecodable e)) ∨
       (∃ c cs i, s.rx = .idle ∧ s.pending = c :: cs ∧ decode c = .ok i ∧ step s = exec i (s'.setPending cs))) := by
    intro s' hr hp hs
    cases hrx : s.rx with
    | accumulating f v => exact .inl ⟨f, v, rfl, by simp [hs, proceed, hr, hrx]⟩
    | idle =>
      cases hpd : s.pending with
      | nil => exact .inr (.inl ⟨rfl, rfl, by simp [hs, proceed, hr, hrx, issue, hp, hpd]⟩)
      | cons c cs =>
        cases hd : decode c with
        | error e => exact .inr (.inr (.inl ⟨c, cs, e, rfl, rfl, hd, by simp [hs, proceed, hr, hrx, issue, hp, hpd, hd]⟩))
        | ok i => exact .inr (.inr (.inr ⟨c, cs, i, rfl, rfl, hd, by simp [hs, proceed, hr, hrx, issue, hp, hpd, hd]⟩))
  cases hl : s.resetLine with
  | nil =>
    refine .inr ⟨by simp, s, ?_, key s rfl rfl (by simp [step, advance, hl])⟩
    exact (congrArg s.setResetLine hl : s = s.setResetLine [])
  | cons b l =>
    cases b with
    | true => exact .inl ⟨l, rfl, by simp [step, advance, hl]⟩
    | false =>
      exact .inr ⟨by simp, s.setResetLine l, by simp, key _ rfl rfl (by simp [step, advance, hl])⟩

end Sys2Proof.Machine
end

