-- ==== Sys2Proof/Laws/Exec.lean ====
section
/-! SUPPORT. Everything an operation can do, said once: the shape of every next state `exec` answers, that it never faults, and what
a step is while a READ is in progress. -/

namespace Sys2Proof.Machine

/-- An operation that answers a next state hands over a value and at most writes `ACC`, or assigns one frame without breaking its
data bound, or is LOAD, READ, WRITE or RESET with the effect named. -/
theorem exec_next {i : Instr} {s t : State} (h : exec i s = .next t) :
    ((∀ f b, i ≠ .load f b) ∧ i ≠ .reset ∧ ∃ a v, t = (s.setAcc a).answer v) ∨
    ((∀ f b, i ≠ .load f b) ∧ i ≠ .reset ∧ ∃ (f : Nat) (F : Frame) (g : Frame → Frame), s.ctx[f]? = some F ∧
      i.context? = some f ∧ t = (s.setFrame f (g F)).answer .unit ∧ ((∃ v, i = .fnew f v) ∨ (g F).raw = F.raw) ∧
      (F.dataFits = true → (g F).dataFits = true)) ∨
    (∃ f F buf, i = .load f buf ∧ s.ctx[f]? = some F ∧
      t = ((s.setFrame f (loadFrame F s.acc buf).frame).setAcc (loadFrame F s.acc buf).acc).finish
        (loadFrame F s.acc buf).error) ∨
    (∃ f F v, i = .read f v ∧ s.ctx[f]? = some F ∧ t = (s.setRxBuf []).setRx (.accumulating f v)) ∨
    (∃ f F w, i = .write f w ∧ s.ctx[f]? = some F ∧
      t = ((s.setAcc (sum8 (dumpBody F))).txWrite (preamble w ++ dumpFrame F)).answer .unit) ∨
    (i = .reset ∧ t = s.resetBlock.answer .unit) := by
  cases i
  case csum x => cases h; exact .inl ⟨by simp, by simp, _, _, rfl⟩
  case csumchk x => simp only [exec, execCsumchk] at h; split at h <;> cases h; exact .inl ⟨by simp, by simp, _, _, rfl⟩
  case addrenc x => cases h; exact .inl ⟨by simp, by simp, s.acc, _, rfl⟩
  case addrdec x => cases h; exact .inl ⟨by simp, by simp, s.acc, _, rfl⟩
  case ctrlenc x => cases h; exact .inl ⟨by simp, by simp, s.acc, _, rfl⟩
  case ctrldec x => cases h; exact .inl ⟨by simp, by simp, s.acc, _, rfl⟩
  case dataenc x => simp only [exec, execDataenc] at h; split at h <;> cases h; exact .inl ⟨by simp, by simp, s.acc, _, rfl⟩
  case datadec x => cases h; exact .inl ⟨by simp, by simp, s.acc, _, rfl⟩
  case structchk x => cases h; exact .inl ⟨by simp, by simp, s.acc, _, rfl⟩
  case fnew f v =>
    obtain ⟨F, hF, rfl⟩ := assign_next h
    exact .inr (.inl ⟨by simp, by simp, f, F, fun _ => freshFrame s.ctrlDefault v, hF, rfl, rfl, .inl ⟨v, rfl⟩,
      fun _ => by simp [Frame.dataFits, Frame.dlen, freshFrame]⟩)
  case setaddr f a =>
    obtain ⟨F, hF, rfl⟩ := assign_next h
    exact .inr (.inl ⟨by simp, by simp, f, F, fun F => { F with addr := some a }, hF, rfl, rfl, .inr rfl, id⟩)
  case clraddr f =>
    obtain ⟨F, hF, rfl⟩ := assign_next h
    exact .inr (.inl ⟨by simp, by simp, f, F, fun F => { F with addr := none }, hF, rfl, rfl, .inr rfl, id⟩)
  case setctrl f dir resp more func =>
    obtain ⟨F, hF, rfl⟩ := assign_next h
    exact .inr (.inl ⟨by simp, by simp, f, F, fun F => { F with ctrl := ⟨dir, resp, more, func⟩ }, hF, rfl, rfl, .inr rfl, id⟩)
  case setdata f d =>
    simp only [exec, execSetdata] at h
    split at h
    · rename_i hd
      obtain ⟨F, hF, rfl⟩ := assign_next h
      exact .inr (.inl ⟨by simp, by simp, f, F, fun F => { F with data := some d }, hF, rfl, rfl, .inr rfl,
        fun _ => decide_eq_true hd⟩)
    · cases h
  case clrdata f =>
    obtain ⟨F, hF, rfl⟩ := assign_next h
    exact .inr (.inl ⟨by simp, by simp, f, F, fun F => { F with data := none }, hF, rfl, rfl, .inr rfl,
      fun _ => by simp [Frame.dataFits, Frame.dlen]⟩)
  case setpver f v =>
    obtain ⟨F, hF, rfl⟩ := assign_next h
    exact .inr (.inl ⟨by simp, by simp, f, F, fun F => { F with pver := v }, hF, rfl, rfl, .inr rfl, id⟩)
  case load f b =>
    obtain ⟨F, hF, hk⟩ := withFrame_next h
    cases hk
    exact .inr (.inr (.inl ⟨f, F, b, rfl, hF, rfl⟩))
  case dump f =>
    simp only [exec, execDump] at h
    obtain ⟨F, hF, _, hk⟩ := withDump_next h
    cases hk
    exact .inl ⟨by simp, by simp, _, _, rfl⟩
  case read f v =>
    obtain ⟨F, hF, hk⟩ := withFrame_next h
    cases hk
    exact .inr (.inr (.inr (.inl ⟨f, F, v, rfl, hF, rfl⟩)))
  case write f w =>
    simp only [exec, execWrite] at h
    obtain ⟨F, hF, _, hk⟩ := withDump_next h
    cases hk
    exact .inr (.inr (.inr (.inr (.inl ⟨f, F, w, rfl, hF, rfl⟩))))
  case reset => cases h; exact .inr (.inr (.inr (.inr (.inr ⟨rfl, rfl⟩))))

/-- No operation faults; only the end of a READ can. -/
theorem exec_ne_fault (i : Instr) (s : State) (r : Fault) : exec i s ≠ .fault r := by
  intro h
  cases i <;>
    simp only [exec, execCsum, execCsumchk, execAddrenc, execAddrdec, execCtrlenc, execCtrldec, execDataenc, execDatadec,
      execStructchk, execFnew, execSetaddr, execClraddr, execSetctrl, execSetdata, execClrdata, execSetpver, execLoad,
      execDump, execRead, execWrite, execReset, assign, withDump, withFrame] at h <;>
    (repeat' split at h) <;> cases h

/-- While a READ is in progress and the reset input is deasserted a step is the READ step. -/
theorem step_of_accumulating {s : State} {f : Nat} {v : Version} (hr : s.rx = .accumulating f v)
    (hl : s.resetLine.head? ≠ some true) : step s = readStep f v (s.setResetLine s.resetLine.tail) := by
  rcases step_cases s with ⟨l, h1, _⟩ | ⟨_, s', rfl, ⟨f', v', h, h2⟩ | ⟨h, _⟩ | ⟨_, _, _, h, _⟩ | ⟨_, _, _, h, _⟩⟩
  · simp [h1] at hl
  · rw [hr] at h
    cases h
    simpa using h2
  all_goals simp [hr] at h

/-- Steps add up. -/
theorem run_add {a : Nat} {s t : State} (b : Nat) (h : run a s = .next t) : run (a + b) s = run b t := by
  induction a generalizing s with
  | zero => cases h; simp
  | succ a ih =>
    rw [Nat.succ_add]
    simp only [run] at h ⊢
    split at h
    · exact ih h
    · cases h
    · cases h

end Sys2Proof.Machine
end

