-- ==== Sys2Proof/Laws/FuncTable.lean ====
section
/-! SUPPORT. The lemmas of the machine's own function codes: the fixed one, and that names of a version do not share a code. -/

namespace Sys2Proof

theorem FuncName.number_injective : Function.Injective FuncName.number := by
  intro m n
  cases m <;> cases n <;> decide

/-- The code the source fixes (30_encoding R64). -/
@[simp] theorem Config.funcCode_readAddress : Config.funcCode .a .readAddress = 0x13 := Equiv.swap_apply_left _ _

/-- Within a version distinct names have distinct codes (30_encoding R64). -/
theorem Config.funcCode_injective (v : Version) : Function.Injective (Config.funcCode v) := by
  cases v with
  | a => exact (Equiv.injective _).comp ((Equiv.injective _).comp FuncName.number_injective)
  | b => exact (Equiv.injective _).comp FuncName.number_injective

end Sys2Proof
end

