-- ==== Sys2Proof/Laws/PerInstr.lean ====
section
/-! SUPPORT. What holds of every operation as syntax: the command byte of its encoding selects the row of its own mnemonic in the
operation table (30_encoding R66), one lemma per constructor. -/

namespace Sys2Proof.Laws.SelectsItsRow

/-- The encoded command byte selects the operation's own row. -/
def Statement (i : Instr) : Prop := decodeByte (encode i).byte = some i.mnemonic

theorem csum (s : List Byte) : Statement (.csum s) := by
  unfold Statement; simp only [encode, Instr.mnemonic]; decide
theorem csumchk (buf : List Byte) : Statement (.csumchk buf) := by
  unfold Statement; simp only [encode, Instr.mnemonic]; decide
theorem addrenc (a : Option Addr) : Statement (.addrenc a) := by
  cases a <;> (unfold Statement; simp only [encode, Instr.mnemonic]; decide)
theorem addrdec (w : Addr) : Statement (.addrdec w) := by
  unfold Statement; simp only [encode, Instr.mnemonic]; decide
theorem ctrlenc (dir resp more : Bool) (func : BitVec 5) : Statement (.ctrlenc dir resp more func) := by
  unfold Statement; simp only [encode, Instr.mnemonic]; decide
theorem ctrldec (c : Byte) : Statement (.ctrldec c) := by
  unfold Statement; simp only [encode, Instr.mnemonic]; decide
theorem dataenc (d : Option (List Byte)) : Statement (.dataenc d) := by
  cases d <;> (unfold Statement; simp only [encode, Instr.mnemonic]; decide)
theorem datadec (w : List Byte) : Statement (.datadec w) := by
  unfold Statement; simp only [encode, Instr.mnemonic]; decide
theorem structchk (buf : List Byte) : Statement (.structchk buf) := by
  unfold Statement; simp only [encode, Instr.mnemonic]; decide
theorem fnew (f : Nat) (v : Version) : Statement (.fnew f v) := by
  cases v <;> (unfold Statement; simp only [encode, Instr.mnemonic, Version.bits]; decide)
theorem setaddr (f : Nat) (a : Addr) : Statement (.setaddr f a) := by
  unfold Statement; simp only [encode, Instr.mnemonic]; decide
theorem clraddr (f : Nat) : Statement (.clraddr f) := by
  unfold Statement; simp only [encode, Instr.mnemonic]; decide
theorem setctrl (f : Nat) (dir resp more : Bool) (func : BitVec 5) : Statement (.setctrl f dir resp more func) := by
  unfold Statement; simp only [encode, Instr.mnemonic]; decide
theorem setdata (f : Nat) (d : List Byte) : Statement (.setdata f d) := by
  unfold Statement; simp only [encode, Instr.mnemonic]; decide
theorem clrdata (f : Nat) : Statement (.clrdata f) := by
  unfold Statement; simp only [encode, Instr.mnemonic]; decide
theorem setpver (f : Nat) (v : Version) : Statement (.setpver f v) := by
  cases v <;> (unfold Statement; simp only [encode, Instr.mnemonic, Version.bits]; decide)
theorem load (f : Nat) (buf : List Byte) : Statement (.load f buf) := by
  unfold Statement; simp only [encode, Instr.mnemonic]; decide
theorem dump (f : Nat) : Statement (.dump f) := by
  unfold Statement; simp only [encode, Instr.mnemonic]; decide
theorem read (f : Nat) (v : Version) : Statement (.read f v) := by
  cases v <;> (unfold Statement; simp only [encode, Instr.mnemonic, Version.bits]; decide)
theorem write (f : Nat) (wake : Bool) : Statement (.write f wake) := by
  cases wake <;> (unfold Statement; simp only [encode, Instr.mnemonic, wakeBits]; decide)
theorem reset : Statement .reset := by
  unfold Statement; simp only [encode, Instr.mnemonic]; decide

end Sys2Proof.Laws.SelectsItsRow
end

