-- ==== Sys2Proof/Tests/Slice0.lean ====
section
/-! SUPPORT. Tests: ill-formed terms refused, each operation's command byte written out in bits, one or two vectors of
spec/95_test_vectors.md an operation, and a witness for the hypotheses of every obligation that has any. -/

namespace Sys2Proof.Tests

open Sys2Proof Sys2Proof.Machine

/- Helpers -/

/-- The next state, where there is one. -/
def nextOf : Stepped → Option State
  | .next t => some t
  | .fault _ => none
  | .refused _ => none

/-- The refusal, where there is one. -/
def refusalOf : Stepped → Option Refusal
  | .next _ => none
  | .fault _ => none
  | .refused r => some r

/-- A reset block with two contexts, an unbounded buffer and `CTRL_DEFAULT` 0 (the vectors' start state). -/
def base : State := State.resetWith 2 none 0x00

/-- What one operation on `base` hands over. -/
def resultOf (i : Instr) : Option (List Result) := (nextOf (exec i base)).map (·.results)

/-- 00 11 22 33 44 55, the address of FR1 to FR3. -/
def station : Addr := ⟨0x00, 0x11, 0x22, 0x33, 0x44, 0x55⟩

def frame1 : Frame :=
  { addr := some station, ctrl := ⟨false, false, false, 0x11⟩, data := some [0x00, 0x01, 0x00, 0x00], raw := none, pver := .a }

def fr1 : List Byte := [0x68, 0x55, 0x44, 0x33, 0x22, 0x11, 0x00, 0x68, 0x11, 0x04, 0x33, 0x33, 0x34, 0x33, 0xb1, 0x16]

def fr2 : List Byte :=
  [0x68, 0x55, 0x44, 0x33, 0x22, 0x11, 0x00, 0x68, 0x91, 0x08, 0x33, 0x33, 0x33, 0x33, 0xca, 0x58, 0x33, 0x33, 0xbc, 0x16]

def disc : List Byte := [0x68, 0xaa, 0xaa, 0xaa, 0xaa, 0xaa, 0xaa, 0x68, 0x13, 0x00, 0xdf, 0x16]

/-- `base` with FR1's fields in F[0]. -/
def withFr1 : State := { base with ctx := [frame1, freshFrame 0x00 .a] }

/-- A READ for F[0] in progress: bytes already in the buffer, symbols to come, and the buffer's bound. -/
def reading (buf : List Byte) (src : List Symbol) (max : Option Nat) : State :=
  { base with rx := .accumulating 0 .a, rxBuf := buf, source := src, rxBufMax := max }

/-- n zero bytes. -/
def zeros (n : Nat) : List Byte := List.replicate n 0

theorem length_zeros (n : Nat) : (zeros n).length = n := List.length_replicate

/-- Bytes as symbols. -/
def symbols (l : List Byte) : List Symbol := l.map .byte

/- Ill-formed terms, each refused by its check -/

theorem test_wellFormed_csumchk_short : Instr.wellFormed (.csumchk [0x16]) = false := by decide
theorem test_wellFormed_csumchk_two : Instr.wellFormed (.csumchk [0x00, 0x00]) = true := by decide
theorem test_wellFormed_dataenc_long : Instr.wellFormed (.dataenc (some (zeros 256))) = false := by
  simp [Instr.wellFormed, N_MAX, length_zeros]
theorem test_wellFormed_dataenc_longest : Instr.wellFormed (.dataenc (some (zeros 255))) = true := by
  simp [Instr.wellFormed, N_MAX, length_zeros]
theorem test_wellFormed_setdata_long : Instr.wellFormed (.setdata 0 (zeros 256)) = false := by
  simp [Instr.wellFormed, N_MAX, length_zeros]
theorem test_inContext_top : Instr.inContext 2 (.dump 1) = true ∧ Instr.inContext 2 (.dump 2) = false := by decide
theorem test_decode_reserved :
    decode ⟨0x09, []⟩ = .error (.reservedCommand 0x09) ∧ decode ⟨0x38, []⟩ = .error (.reservedCommand 0x38) ∧
    decode ⟨0x40, [.bytes []]⟩ = .error (.reservedCommand 0x40) ∧
    decode ⟨0x9a, [.ctx 0]⟩ = .error (.reservedCommand 0x9a) := ⟨rfl, rfl, rfl, rfl⟩
theorem test_decode_operandShape : decode ⟨0x19, [.num 0]⟩ = .error .operandShape := rfl
theorem test_decode_addressLength : decode ⟨0x02, [.bytes [1, 2, 3, 4, 5]]⟩ = .error .addressLength := rfl
theorem test_decode_malformedHex : decode ⟨0x14, [.ctx 0, .hex ['1', '2', '3']]⟩ = .error .malformedHex := rfl
theorem test_decode_fieldTooWide : decode ⟨0x04, [.num 0, .num 0, .num 0, .num 0x20]⟩ = .error .fieldTooWide := rfl
theorem test_decode_bufferTooShort : decode ⟨0x01, [.bytes [0x16]]⟩ = .error .bufferTooShort := rfl
theorem test_decode_dataTooLong : decode ⟨0x06, [.bytes (zeros 256)]⟩ = .error .dataTooLong := by
  simp [decode, decodeByte, opTable, Row.selects, assemble, dataOperand, sequenceOperand, N_MAX, length_zeros, bind, Except.bind, Except.map]

/- Every constructor's decoding, the byte written out in bits: W, V, 0, OP (R65, R66, V49) -/

theorem test_word_csum : decode ⟨0b0_0_0_00000#8, [.bytes [0x68]]⟩ = .ok (.csum [0x68]) := rfl
theorem test_word_csumchk : decode ⟨0b0_0_0_00001#8, [.bytes [0x01, 0x16]]⟩ = .ok (.csumchk [0x01, 0x16]) := rfl
theorem test_word_addrenc : decode ⟨0b0_0_0_00010#8, [.absent]⟩ = .ok (.addrenc none) ∧
    decode ⟨0b0_0_0_00010#8, [.bytes [0x00, 0x11, 0x22, 0x33, 0x44, 0x55]]⟩ = .ok (.addrenc (some station)) := ⟨rfl, rfl⟩
theorem test_word_addrdec :
    decode ⟨0b0_0_0_00011#8, [.bytes [0x00, 0x11, 0x22, 0x33, 0x44, 0x55]]⟩ = .ok (.addrdec station) := rfl
theorem test_word_ctrlenc :
    decode ⟨0b0_0_0_00100#8, [.num 1, .num 0, .num 1, .num 0x1f]⟩ = .ok (.ctrlenc true false true 0x1f) := rfl
theorem test_word_ctrldec : decode ⟨0b0_0_0_00101#8, [.num 0xff]⟩ = .ok (.ctrldec 0xff) := rfl
theorem test_word_dataenc : decode ⟨0b0_0_0_00110#8, [.hex ['c', 'D']]⟩ = .ok (.dataenc (some [0xcd])) := rfl
theorem test_word_datadec : decode ⟨0b0_0_0_00111#8, [.bytes [0x33]]⟩ = .ok (.datadec [0x33]) := rfl
theorem test_word_structchk : decode ⟨0b0_0_0_01000#8, [.bytes []]⟩ = .ok (.structchk []) := rfl
theorem test_word_fnew : decode ⟨0b0_0_0_10000#8, [.ctx 1]⟩ = .ok (.fnew 1 .a) ∧
    decode ⟨0b0_1_0_10000#8, [.ctx 1]⟩ = .ok (.fnew 1 .b) := ⟨rfl, rfl⟩
theorem test_word_setaddr :
    decode ⟨0b0_0_0_10001#8, [.ctx 0, .hex ['0', '0', '1', '1', '2', '2', '3', '3', '4', '4', '5', '5']]⟩ =
      .ok (.setaddr 0 station) := rfl
theorem test_word_clraddr : decode ⟨0b0_0_0_10010#8, [.ctx 0]⟩ = .ok (.clraddr 0) := rfl
theorem test_word_setctrl : decode ⟨0b0_0_0_10011#8, [.ctx 0, .num 0, .num 1, .num 0, .num 0x11]⟩ =
    .ok (.setctrl 0 false true false 0x11) := rfl
theorem test_word_setdata : decode ⟨0b0_0_0_10100#8, [.ctx 0, .hex []]⟩ = .ok (.setdata 0 []) := rfl
theorem test_word_clrdata : decode ⟨0b0_0_0_10101#8, [.ctx 0]⟩ = .ok (.clrdata 0) := rfl
theorem test_word_setpver : decode ⟨0b0_0_0_10110#8, [.ctx 0]⟩ = .ok (.setpver 0 .a) ∧
    decode ⟨0b0_1_0_10110#8, [.ctx 0]⟩ = .ok (.setpver 0 .b) := ⟨rfl, rfl⟩
theorem test_word_load : decode ⟨0b0_0_0_11000#8, [.ctx 0, .bytes [0x68, 0x16]]⟩ = .ok (.load 0 [0x68, 0x16]) := rfl
theorem test_word_dump : decode ⟨0b0_0_0_11001#8, [.ctx 0]⟩ = .ok (.dump 0) := rfl
theorem test_word_read : decode ⟨0b0_0_0_11010#8, [.ctx 0]⟩ = .ok (.read 0 .a) ∧
    decode ⟨0b0_1_0_11010#8, [.ctx 0]⟩ = .ok (.read 0 .b) := ⟨rfl, rfl⟩
theorem test_word_write : decode ⟨0b0_0_0_11011#8, [.ctx 0]⟩ = .ok (.write 0 false) ∧
    decode ⟨0b1_0_0_11011#8, [.ctx 0]⟩ = .ok (.write 0 true) := ⟨rfl, rfl⟩
theorem test_word_reset : decode ⟨0b0_0_0_11111#8, []⟩ = .ok .reset := rfl
theorem test_valid_bytes : ((List.range 256).filter fun n => (decodeByte (BitVec.ofNat 8 n)).isSome).length = 25 := by
  decide +kernel

/- Operations, expected results from spec/95_test_vectors.md -/

/-- V2 d. -/
theorem test_csum_wraps : resultOf (.csum [0xff, 0xff]) = some [.ok (.byte 0xfe)] := by decide
/-- V2 h. -/
theorem test_csum_disc :
    resultOf (.csum [0x68, 0xaa, 0xaa, 0xaa, 0xaa, 0xaa, 0xaa, 0x68, 0x13, 0x00]) = some [.ok (.byte 0xdf)] := by decide
/-- V3 g. -/
theorem test_csumchk_wraps : resultOf (.csumchk [0xff, 0x01, 0x00, 0x16]) = some [.ok (.bit true)] := by decide
/-- V3 c, f: the last byte is neither summed nor compared. -/
theorem test_csumchk_last_byte : resultOf (.csumchk (fr1.dropLast ++ [0x17])) = some [.ok (.bit true)] ∧
    resultOf (.csumchk [0x01, 0x16]) = some [.ok (.bit false)] := by decide
/-- V5 c, d. -/
theorem test_addrenc :
    resultOf (.addrenc (some ⟨0x12, 0x34, 0x56, 0x78, 0x90, 0x12⟩)) =
      some [.ok (.bytes [0x12, 0x90, 0x78, 0x56, 0x34, 0x12])] ∧
    resultOf (.addrenc none) = some [.ok (.bytes [0xaa, 0xaa, 0xaa, 0xaa, 0xaa, 0xaa])] := by decide
/-- V6 c. -/
theorem test_addrdec : resultOf (.addrdec ⟨0x0a, 0x0b, 0x0c, 0x0d, 0x0e, 0x0f⟩) =
    some [.ok (.bytes [0x0f, 0x0e, 0x0d, 0x0c, 0x0b, 0x0a])] := by decide
/-- V6 c, in string form. -/
theorem test_addrdec_string : addrDecString ⟨0x0a, 0x0b, 0x0c, 0x0d, 0x0e, 0x0f⟩ = "0f0e0d0c0b0a".toList := by decide
/-- V7. -/
theorem test_ctrlenc : resultOf (.ctrlenc true true false 0x11) = some [.ok (.byte 0xd1)] ∧
    resultOf (.ctrlenc true false true 0x11) = some [.ok (.byte 0xb1)] := by decide
/-- V8. -/
theorem test_ctrldec : resultOf (.ctrldec 0x7f) = some [.ok (.ctrl ⟨false, true, true, 0x1f⟩)] ∧
    resultOf (.ctrldec 0x91) = some [.ok (.ctrl ⟨true, false, false, 0x11⟩)] := by decide
/-- V10. -/
theorem test_dataenc_wraps : resultOf (.dataenc (some [0xcd, 0xff, 0xcb, 0xe3, 0x00, 0xcc])) =
    some [.ok (.bytes [0xff, 0x33, 0x16, 0xfe, 0x32, 0x00])] := by decide
/-- V11. -/
theorem test_dataenc_absent : resultOf (.dataenc none) = some [.ok (.bytes [])] := by decide
/-- V13. -/
theorem test_datadec_wraps : resultOf (.datadec [0x00, 0x32, 0xfe, 0x16, 0x33, 0x00]) =
    some [.ok (.bytes [0xcd, 0x00, 0xe3, 0xcb, 0xff, 0xcd])] := by decide
/-- V14, in string form. -/
theorem test_dataenc_string : dataEncString "AbCdEf".toList = some [0x22, 0x00, 0xde] ∧
    dataDecString [0x22, 0x00, 0xde] = "abcdef".toList := by decide
/-- R62, R87: 510 digits have a wire form, 512 have none. -/
theorem test_dataenc_string_longest : (dataEncString (List.replicate 510 '0')).map (·.length) = some 255 ∧
    dataEncString (List.replicate 512 '0') = none := by decide +kernel
/-- V4 j, h. -/
theorem test_structchk_shortest :
    resultOf (.structchk [0x68, 0, 0, 0, 0, 0, 0, 0x68, 0x16]) = some [.ok (.bit true)] ∧
    resultOf (.structchk [0x68, 0, 0, 0, 0, 0, 0, 0x68]) = some [.ok (.bit false)] := by decide
/-- V4 e, b. -/
theorem test_structchk_markers_only :
    resultOf (.structchk (fr1.take 14 ++ [0xb0, 0x16])) = some [.ok (.bit true)] ∧
    resultOf (.structchk (fr1.take 7 ++ [0x00] ++ fr1.drop 8)) = some [.ok (.bit false)] := by decide
/-- V15, with CTRL_DEFAULT 0xff: F[0] alone becomes fresh. -/
theorem test_fnew : (nextOf (exec (.fnew 0 .b) { withFr1 with ctrlDefault := 0xff })).map (·.ctx) =
    some [⟨none, ⟨true, true, true, 0x1f⟩, none, none, .b⟩, freshFrame 0x00 .a] := by decide
/-- R94. -/
theorem test_setaddr : (nextOf (exec (.setaddr 1 station) base)).map (·.ctx) =
    some [freshFrame 0x00 .a, { freshFrame 0x00 .a with addr := some station }] := by decide
/-- R95. -/
theorem test_clraddr : (nextOf (exec (.clraddr 0) withFr1)).map (·.ctx.map (·.addrP)) = some [false, false] := by decide
/-- R96. -/
theorem test_setctrl : (nextOf (exec (.setctrl 0 true false true 0x10) withFr1)).map (fun t => t.ctx.map (·.ctrl)) =
    some [⟨true, false, true, 0x10⟩, ⟨false, false, false, 0⟩] := by decide
/-- R97. -/
theorem test_setdata : (nextOf (exec (.setdata 0 []) withFr1)).map (fun t => t.ctx.map fun F => (F.dataP, F.dlen)) =
    some [(true, 0), (false, 0)] := by decide
/-- R98. -/
theorem test_clrdata : (nextOf (exec (.clrdata 0) withFr1)).map (fun t => t.ctx.map fun F => (F.dataP, F.dlen)) =
    some [(false, 0), (false, 0)] := by decide
/-- V45. -/
theorem test_setpver : (nextOf (exec (.setpver 0 .b) withFr1)).map (fun t => t.ctx.map fun F => (F.pver, dumpFrame F == fr1)) =
    some [(.b, true), (.a, false)] := by decide
/-- V21. -/
theorem test_load : (nextOf (exec (.load 0 fr2) base)).map (fun t => (t.ctx.head?, t.statusErr, t.acc)) =
    some (some ⟨some station, ⟨true, false, false, 0x11⟩, some [0, 0, 0x25, 0x97, 0, 0, 0, 0], some fr2, .a⟩, 0, 0xbc) := by
  decide
/-- V24 c: the markers stand in ten bytes and the sum is wrong. -/
theorem test_load_checksum : (nextOf (exec (.load 0 [0x68, 0, 0, 0, 0, 0, 0, 0x68, 0x18, 0x16]) base)).map
    (fun t => (t.statusErr, t.results, t.ctx.map (·.rawP))) = some (2, [.error .checksumError], [true, false]) := by decide
/-- V16. -/
theorem test_dump : (nextOf (exec (.dump 0) withFr1)).map (fun t => (t.results, t.ctx == withFr1.ctx)) =
    some ([.ok (.bytes fr1)], true) := by decide
/-- V22. -/
theorem test_dump_disc : (nextOf (exec (.load 1 disc) base)).bind (fun t => (nextOf (exec (.dump 1) t)).map (·.results)) =
    some [.ok .unit, .ok (.bytes disc)] := by decide
/-- R105. -/
theorem test_read : (nextOf (exec (.read 1 .b) { base with rxBuf := [0x68, 0x55] })).map (fun t => (t.rx, t.rxBuf)) =
    some (.accumulating 1 .b, []) := by decide
/-- V44, the last step of its second source: the marker does not fit the full buffer. -/
theorem test_read_overflow : (nextOf (step (reading [1, 2, 3, 4] [.byte 0x16] (some 4)))).map
    (fun t => (t.rx, t.statusErr, t.rxBuf, t.results)) = some (.idle, 5, [1, 2, 3, 4], [.error .overflowFault]) := by decide
/-- V33, the last step: the frame is delivered. -/
theorem test_read_last_step : (nextOf (step (reading fr2.dropLast [.byte 0x16, .byte 0x68] none))).map
    (fun t => (t.rx, t.statusErr, t.source, t.ctx.map (·.raw) == [some fr2, none])) =
      some (.idle, 0, [.byte 0x68], true) := by decide
/-- V47. -/
theorem test_write : (nextOf (exec (.write 0 true) withFr1)).map (fun t => (t.sink, t.ctx == withFr1.ctx)) =
    some ([[0xfe, 0xfe, 0xfe, 0xfe] ++ fr1], true) := by decide
/-- V47. -/
theorem test_write_nowake : (nextOf (exec (.write 0 false) withFr1)).map (·.sink) = some [fr1] := by decide
/-- V48. -/
theorem test_reset : (nextOf (exec .reset { withFr1 with acc := 0xb1, statusErr := 2, rxBuf := [0x68] })).map
    (fun t => (t.ctx, t.acc, t.statusErr, t.rxBuf)) = some (base.ctx, 0, 0, []) := by decide
/-- U16: a context at NCTX. -/
theorem test_context_out_of_range : refusalOf (exec (.dump 2) base) = some (.contextOutOfRange 2) := by decide
/-- A placed row is what the next step runs. -/
theorem test_placed_row_runs : (nextOf (step (base.withFetchWord 8 0x50))).map (fun t => t.ctx.map (·.pver)) =
    some [.b, .a] := by decide

/- Witnesses: for each obligation with hypotheses, states and operands that meet them, at the ends of each clause's range -/

/-- The shortest buffer LOAD accepts: 11 bytes, N = 1, its data byte the end marker. -/
def shortest : List Byte := [0x68, 0, 0, 0, 0, 0, 0, 0x68, 0x31, 0x01, 0x16]

/-- Eleven symbols of a READ with two wake bytes and no end marker. -/
def opening : List Symbol := symbols ([0xfe] ++ fr2.take 9 ++ [0xfe])

/-- A legal function table. -/
def table : FuncTable :=
  { a := [(.readData, 1), (.readAddress, 0x13), (.writeData, 2), (.writeAddress, 3), (.setSpeed, 4), (.setPassword, 5),
          (.resetPower, 6)]
    b := [(.readData, 1), (.readMore, 2), (.readAgain, 3), (.writeData, 4), (.broadcastTime, 5), (.writeAddress, 6),
          (.setSpeed, 7), (.setPassword, 8), (.resetDemand, 9)] }

/-- `base` with commands to issue. -/
def issuing (l : List Command) : State := { base with pending := l }

theorem test_meets_DecodeOfEncode : Instr.wellFormed (.setdata 0 (zeros 255)) = true ∧
    Instr.wellFormed (.ctrlenc true true true 0x1f) = true ∧ Instr.wellFormed (.csumchk [0, 0]) = true := by
  simp [Instr.wellFormed, N_MAX, length_zeros]

theorem test_meets_EncodeOfDecode : ∃ i, decode ⟨0x14, [.ctx 0, .hex ['A', 'b']]⟩ = .ok i := ⟨_, rfl⟩

theorem test_meets_EveryCommandByte : (∃ r ∈ opTable, r.selects 0x9b = true) ∧ ∀ r ∈ opTable, r.selects 0x3f = false := by
  decide

theorem reserved_of_decodeByte {c : Byte} (h : decodeByte c = none) (ops : List Operand) :
    decode ⟨c, ops⟩ = .error (.reservedCommand c) := by simp [decode, h]

theorem test_meets_ReservedCommands :
    (∀ ops, decode ⟨0x20, ops⟩ = .error (.reservedCommand 0x20)) ∧ (∀ ops, decode ⟨0x1e, ops⟩ = .error (.reservedCommand 0x1e)) ∧
    (∀ ops, decode ⟨0x9a, ops⟩ = .error (.reservedCommand 0x9a)) ∧ (∀ ops, decode ⟨0x58, ops⟩ = .error (.reservedCommand 0x58)) ∧
    (∃ i, decode ⟨0x9b, [.ctx 0]⟩ = .ok i) ∧ (∃ i, decode ⟨0x5a, [.ctx 0]⟩ = .ok i) ∧
    (issuing [⟨0x20, []⟩]).rx = .idle ∧ (issuing [⟨0x20, []⟩]).resetLine.head? ≠ some true :=
  ⟨reserved_of_decodeByte (by decide), reserved_of_decodeByte (by decide), reserved_of_decodeByte (by decide),
    reserved_of_decodeByte (by decide), ⟨_, rfl⟩, ⟨_, rfl⟩, rfl, by decide⟩

theorem test_meets_StepDoes : (issuing [⟨0x1f, []⟩]).rx = .idle ∧ (issuing [⟨0x1f, []⟩]).resetLine.head? ≠ some true ∧
    (issuing [⟨0x1f, []⟩]).pending = [⟨0x1f, []⟩] ∧ decode ⟨0x1f, []⟩ = .ok .reset := ⟨rfl, by decide, rfl, rfl⟩

theorem test_meets_ReadInProgress : (reading [] [] none).rx = .accumulating 0 .a ∧ 0 < (reading [] [] none).ctx.length ∧
    (reading [] [] none).resetLine.head? ≠ some true := by decide

theorem test_meets_IdleBlockWaits : base.rx = .idle ∧ base.resetLine.head? ≠ some true ∧ base.pending = [] := by decide

theorem test_meets_Csumchk : 2 ≤ ([0x01, 0x16] : List Byte).length ∧ ([0x16] : List Byte).length < 2 := by decide

theorem test_meets_Structchk : structureHolds [0x68, 0, 0, 0, 0, 0, 0, 0x68, 0x16] = true ∧
    structureHolds [0x68, 0, 0, 0, 0, 0, 0, 0x68] = false := by decide

theorem test_meets_Addrenc : (zeros 5).length ≠ 6 ∧ (zeros 7).length ≠ 6 ∧
    decode ⟨0x02, [.bytes (zeros 7)]⟩ = .error .addressLength := by decide

theorem test_meets_Addrdec : ∃ c ∈ addrDecString station, c ∈ "0123456789abcdef".toList := ⟨'5', by decide⟩

theorem test_meets_Ctrlenc : decode ⟨0x04, [.num 2, .num 0, .num 0, .num 0]⟩ = .error .fieldTooWide ∧
    decode ⟨0x04, [.num 0, .num 2, .num 0, .num 0]⟩ = .error .fieldTooWide ∧
    decode ⟨0x04, [.num 0, .num 0, .num 2, .num 0]⟩ = .error .fieldTooWide ∧
    decode ⟨0x04, [.num 0, .num 0, .num 0, .num 32]⟩ = .error .fieldTooWide := ⟨rfl, rfl, rfl, rfl⟩

theorem test_meets_Dataenc : (zeros 255).length ≤ 255 ∧ 255 < (zeros 256).length ∧ 254 < (zeros 255).length := by
  simp [length_zeros]

theorem test_meets_Datadec : 3 < ([0x33, 0x33, 0x34, 0x33] : List Byte).length := by decide

theorem test_meets_HexStrings : unhex ['0', 'F', 'f', '9'] = some [0x0f, 0xf9] ∧ 1 < ([0x0f, 0xf9] : List Byte).length ∧
    unhex ['1', '2', '3'] = none ∧ unhex ['1', 'g'] = none := by decide

theorem test_meets_ChecksumArithmetic : ([0x68, 0x16] : List Byte)[1]? = some 0x16 ∧ (0x16 : Byte) ≠ 0x17 ∧
    ([0x68, 0x16] : List Byte).Perm [0x16, 0x68] := by decide

theorem test_meets_CodecsChangeOnly : Instr.isCodec (.ctrldec 0x11) = true ∧ (∃ t, exec (.ctrldec 0x11) base = .next t) ∧
    (∀ x, Instr.ctrldec 0x11 ≠ .csum x) ∧ (∀ x, Instr.ctrldec 0x11 ≠ .csumchk x) := ⟨rfl, ⟨_, rfl⟩, by simp, by simp⟩

theorem test_meets_CodecsAreStateless : Instr.isCodec (.csumchk [0, 0]) = true ∧ ∃ t, exec (.csumchk [0, 0]) base = .next t :=
  ⟨rfl, _, rfl⟩

theorem test_meets_Fnew : 1 < base.ctx.length := by decide

theorem test_meets_Setaddr : base.ctx[1]? = some (freshFrame 0x00 .a) := by decide

theorem test_meets_Setctrl : withFr1.ctx[0]? = some frame1 := by decide

theorem test_meets_Setdata : withFr1.ctx[0]? = some frame1 ∧ (zeros 255).length ≤ 255 ∧ 255 < (zeros 256).length := by
  simp only [length_zeros]; decide

theorem test_meets_Setpver : base.ctx[0]? = some (freshFrame 0x00 .a) := by decide

theorem test_meets_ContextsAtOrAbove : Instr.wellFormed (.read 2 .a) = true ∧ Instr.context? (.read 2 .a) = some 2 ∧
    base.ctx.length ≤ 2 := by decide

theorem test_meets_OperationsOnOneContext : (Instr.context? (.load 0 fr2) = some 0 ∧ 1 ≠ 0 ∧ ∃ t, exec (.load 0 fr2) base = .next t) ∧
    (reading fr2.dropLast [.byte 0x16] none).rx = .accumulating 0 .a ∧
    (reading fr2.dropLast [.byte 0x16] none).resetLine.head? ≠ some true ∧
    (nextOf (step (reading fr2.dropLast [.byte 0x16] none))).isSome = true := ⟨⟨rfl, by decide, _, rfl⟩, by decide⟩

theorem test_meets_LoadDecodes : base.ctx[0]? = some (freshFrame 0x00 .a) ∧ shortest[0]? = some 0x68 ∧ shortest[7]? = some 0x68 ∧
    shortest.getLast? = some 0x16 ∧ shortest[shortest.length - 2]? = some 0x01 ∧
    (0x01 : Byte).toNat = ((shortest.take (shortest.length - 2)).map (·.toNat)).sum % 256 ∧ shortest[1]? = some 0 ∧
    shortest[6]? = some 0 ∧ shortest[8]? = some 0x31 ∧ shortest[9]? = some 0x01 ∧ 10 + (0x01 : Byte).toNat ≤ shortest.length ∧
    (nextOf (exec (.load 0 shortest) base)).map (fun t => t.ctx.map (·.data)) = some [some [0xe3], none] := by decide

theorem test_meets_LoadDecodes_fr2 : fr2[0]? = some 0x68 ∧ fr2[7]? = some 0x68 ∧ fr2.getLast? = some 0x16 ∧
    fr2[fr2.length - 2]? = some 0xbc ∧ (0xbc : Byte).toNat = ((fr2.take (fr2.length - 2)).map (·.toNat)).sum % 256 ∧
    fr2[1]? = some station.b5 ∧ fr2[2]? = some station.b4 ∧ fr2[3]? = some station.b3 ∧ fr2[4]? = some station.b2 ∧
    fr2[5]? = some station.b1 ∧ fr2[6]? = some station.b0 ∧ fr2[8]? = some 0x91 ∧ fr2[9]? = some 0x08 ∧
    10 + (0x08 : Byte).toNat ≤ fr2.length := by decide

theorem test_meets_LoadWithoutMarkers : 1 < base.ctx.length ∧ ([0x68, 0, 0, 0, 0, 0, 0x16] : List Byte).length < 8 ∧
    ([0x69, 0, 0, 0, 0, 0, 0, 0x68, 0x16] : List Byte).head? ≠ some 0x68 ∧
    ([0x68, 0, 0, 0, 0, 0, 0, 0x16] : List Byte)[7]? ≠ some 0x68 ∧
    ([0x68, 0, 0, 0, 0, 0, 0, 0x68] : List Byte).getLast? ≠ some 0x16 := by decide

theorem test_meets_LoadWithWrongSum : ∃ buf : List Byte, buf = [0x68, 1, 0, 0, 0, 0, 0, 0x68, 0x16] ∧ 8 ≤ buf.length ∧
    buf[0]? = some 0x68 ∧ buf[7]? = some 0x68 ∧ buf.getLast? = some 0x16 ∧ buf[buf.length - 2]? = some 0x68 ∧
    (0x68 : Byte).toNat ≠ ((buf.take (buf.length - 2)).map (·.toNat)).sum % 256 := ⟨_, rfl, by decide⟩

theorem test_meets_LoadOfMissingBytes : ∃ buf : List Byte, buf = [0x68, 0, 0, 0, 0, 0, 0, 0x68, 0x16] ∧ 8 ≤ buf.length ∧
    buf[0]? = some 0x68 ∧ buf[7]? = some 0x68 ∧ buf.getLast? = some 0x16 ∧ buf[buf.length - 2]? = some 0x68 ∧
    (0x68 : Byte).toNat = ((buf.take (buf.length - 2)).map (·.toNat)).sum % 256 ∧ buf.length < 10 := ⟨_, rfl, by decide⟩

theorem test_meets_LoadOfMissingBytes_data : ∃ buf : List Byte, buf = [0x68, 0, 0, 0, 0, 0, 0, 0x68, 0, 0x03, 0xd3, 0x16] ∧
    8 ≤ buf.length ∧ buf[0]? = some 0x68 ∧ buf[7]? = some 0x68 ∧ buf.getLast? = some 0x16 ∧
    buf[buf.length - 2]? = some 0xd3 ∧ (0xd3 : Byte).toNat = ((buf.take (buf.length - 2)).map (·.toNat)).sum % 256 ∧
    buf[9]? = some 0x03 ∧ buf.length < 10 + (0x03 : Byte).toNat := ⟨_, rfl, by decide⟩

theorem test_meets_DumpLaysOut : withFr1.ctx[0]? = some frame1 ∧ frame1.dlen ≤ 255 ∧ frame1.addr = some station ∧
    frame1.data = some [0x00, 0x01, 0x00, 0x00] ∧ withFr1.ctx[1]? = some (freshFrame 0x00 .a) ∧
    (freshFrame 0x00 .a).addr = none := by decide

theorem test_meets_DumpLaysOut_longest : Frame.dlen { frame1 with data := some (zeros 255) } ≤ 255 :=
  Nat.le_of_eq (length_zeros 255)

theorem test_meets_AbsentFields : ((some ⟨0xaa, 0xaa, 0xaa, 0xaa, 0xaa, 0xaa⟩ : Option Addr) = none ∨
    (some ⟨0xaa, 0xaa, 0xaa, 0xaa, 0xaa, 0xaa⟩ : Option Addr) = some ⟨0xaa, 0xaa, 0xaa, 0xaa, 0xaa, 0xaa⟩) ∧
    ((some [] : Option (List Byte)) = none ∨ (some [] : Option (List Byte)) = some []) := by decide

theorem test_meets_LoadOfDump : withFr1.ctx[0]? = some frame1 ∧ frame1.dlen ≤ 255 ∧
    withFr1.ctx[1]? = some (freshFrame 0x00 .a) := by decide

theorem test_meets_DumpOfLoad : (nextOf (exec (.load 0 fr2) base)).map (·.statusErr) = some 0 ∧ fr2[9]? = some 0x08 ∧
    fr2.length = 12 + (0x08 : Byte).toNat ∧ (nextOf (exec (.load 0 shortest) base)).map (·.statusErr) = some 0 ∧
    shortest[9]? = some 0x01 ∧ shortest.length ≠ 12 + (0x01 : Byte).toNat := by decide

theorem test_meets_ReadStarts : 1 < base.ctx.length := by decide

theorem test_meets_ReadStep : (reading [] [.noByte] none).nextSymbol = .noByte ∧
    (reading [] [.byte 0xfe] none).nextSymbol = .byte 0xfe ∧
    ((reading [1, 2, 3, 4] [.byte 0x16] (some 4)).nextSymbol = .byte 0x16 ∧
      (reading [1, 2, 3, 4] [.byte 0x16] (some 4)).rxBufMax = some 4) ∧
    (reading [1, 2, 3] [.byte 0x68] (some 4)).nextSymbol = .byte 0x68 ∧
    (reading [1, 2, 3] [.byte 0x68] (some 4)).rxBufMax ≠ some 3 := by decide

theorem test_meets_ReadEnds : ∃ s : State, s = reading fr2.dropLast [.byte 0x16] (some 20) ∧ s.rx = .accumulating 0 .a ∧
    s.resetLine.head? ≠ some true ∧ 0 < s.ctx.length ∧ s.nextSymbol = .byte 0x16 ∧ s.rxBufMax ≠ some s.rxBuf.length :=
  ⟨_, rfl, by decide⟩

theorem test_meets_ReadConsumes : ∃ s : State, s = reading [] (opening ++ .byte 0x16 :: [.byte 0x68]) (some 10) ∧
    s.rx = .accumulating 0 .a ∧ s.rxBuf = [] ∧ s.resetLine = [] ∧ 0 < s.ctx.length ∧ endless opening = true ∧
    s.source = opening ++ .byte 0x16 :: [.byte 0x68] ∧ s.holds ((keptBytes opening).length + 1) = true := ⟨_, rfl, by decide⟩

theorem test_meets_Timeout : ∃ s : State, s = reading [] (opening ++ .noByte :: []) (some 9) ∧ s.rx = .accumulating 0 .a ∧
    s.rxBuf = [] ∧ s.resetLine = [] ∧ endless opening = true ∧ s.source = opening ++ .noByte :: [] ∧
    s.holds (keptBytes opening).length = true := ⟨_, rfl, by decide⟩

theorem test_meets_Overflow : ∃ s : State, s = reading [] (opening ++ .byte 0x16 :: []) (some 9) ∧ s.rx = .accumulating 0 .a ∧
    s.rxBuf = [] ∧ s.resetLine = [] ∧ endless opening = true ∧ (0x16 : Byte) ≠ 0xfe ∧ s.source = opening ++ .byte 0x16 :: [] ∧
    s.rxBufMax = some (keptBytes opening).length := ⟨_, rfl, by decide⟩

theorem test_meets_WakeBytes : endless opening = true ∧ endless (symbols (fr2.take 9)) = true ∧
    opening.filter (· ≠ .byte 0xfe) = (symbols (fr2.take 9)).filter (· ≠ .byte 0xfe) ∧ opening ≠ symbols (fr2.take 9) ∧
    (reading [] [] (some 10)).holds ((keptBytes opening).length + 1) = true := by decide

theorem test_meets_ReadNeverEnds : (endless opening = true ∧ (reading [] (opening ++ []) none).rxBufMax = none) ∧
    endless (symbols [0xfe, 0xfe]) = true ∧ keptBytes (symbols [0xfe, 0xfe]) = [] := by decide

theorem test_meets_NoPartialFrame : (nextOf (step (reading fr2.dropLast [.byte 0x16] none))).map
    (fun t => t.ctx == (reading fr2.dropLast [.byte 0x16] none).ctx) = some false := by decide

theorem test_meets_WriteSends : withFr1.ctx[0]? = some frame1 ∧ frame1.dlen ≤ 255 := by decide

theorem test_meets_Discover : 1 < base.ctx.length ∧ base.rx = .idle ∧ base.resetLine = [] := by decide

theorem test_meets_WriteThenRead : withFr1.ctx[0]? = some frame1 ∧ frame1.dlen ≤ 255 ∧ 1 < withFr1.ctx.length ∧
    withFr1.holds 267 = true ∧ WAKE ∉ dumpFrame frame1 ∧ END ∉ (dumpFrame frame1).dropLast ∧
    (nextOf (exec (.write 0 true) withFr1)).map (·.sink) = some (withFr1.sink ++ [[0xfe, 0xfe, 0xfe, 0xfe] ++ fr1]) := by decide

theorem test_meets_ResetInput : ({ base with resetLine := [true, false] } : State).resetLine = true :: [false] := rfl

theorem test_meets_EveryStepKeeps : (base.sound = true ∧ ∃ t, step base = .next t) ∧
    (reading [1, 2, 3, 4] [.byte 0x16] (some 4)).sound = true ∧
    (nextOf (step (reading [1, 2, 3, 4] [.byte 0x16] (some 4)))).isSome = true := ⟨⟨by decide, _, rfl⟩, by decide⟩

/-- The invariant rules something out: a wake byte in the buffer, a buffer past its bound, a READ for no context. -/
theorem test_sound_is_not_trivial : (reading [0xfe] [] none).sound = false ∧ (reading [1, 2, 3] [] (some 2)).sound = false ∧
    ({ base with rx := .accumulating 2 .a } : State).sound = false ∧ ({ base with ctx := [] } : State).sound = false ∧
    ({ base with statusErr := 6 } : State).sound = false := by decide

theorem test_meets_Histories : (nextOf (step (issuing [⟨0x9b, [.ctx 0]⟩]))).isSome = true := by decide

theorem test_meets_StatusErr : (∃ t, exec (.dump 0) base = .next t) ∧ (∃ t, exec (.load 0 []) base = .next t) ∧
    (reading [] [.noByte] none).rx = .accumulating 0 .a ∧ (reading [] [.noByte] none).resetLine.head? ≠ some true ∧
    (nextOf (step (reading [] [.noByte] none))).isSome = true := ⟨⟨_, rfl⟩, ⟨_, rfl⟩, by decide⟩

theorem test_meets_RawBytes : ∃ t, exec (.setdata 0 [0x11]) withFr1 = .next t := ⟨_, rfl⟩

theorem test_meets_WellFormedComplete : base.typed = true ∧ Instr.wellFormed (.write 1 true) = true ∧
    Instr.inContext base.ctx.length (.write 1 true) = true ∧ base.sound = true := by decide

theorem test_meets_ResultsIgnore : (∃ t, exec (.csum [0x68]) base = .next t) ∧
    (nextOf (step (reading fr2.dropLast [.byte 0x16] none))).isSome = true ∧
    (nextOf (step (reading [] [.byte 0x16] none))).isSome = true := ⟨⟨_, rfl⟩, by decide⟩

theorem test_meets_HostReads : (base.rx = .idle ∧ base.ctx[0]? = some (freshFrame 0x00 .a) ∧ (freshFrame 0x00 .a).addr = none ∧
      (freshFrame 0x00 .a).data = none ∧ (freshFrame 0x00 .a).raw = none) ∧
    (withFr1.ctx[0]? = some frame1 ∧ frame1.addr = some station ∧ frame1.data = some [0x00, 0x01, 0x00, 0x00]) ∧
    ({ frame1 with raw := some fr1 } : Frame).raw = some fr1 ∧ (reading [] [] none).rx = .accumulating 0 .a := by decide

theorem test_meets_FunctionTable : table.legal = true ∧ funcCode table .b .readMore = some 2 ∧
    funcName table .b 2 = some .readMore ∧ funcCode table .b .readAddress = none := by decide

end Sys2Proof.Tests
end

section
/-! What one step can do to the other contexts, and the noninterference of contexts (10_state R13). -/

namespace Sys2Proof.Machine

/-- Do `u` to the next state of an outcome; a fault or a refusal stays. -/
def onNext (u : State → State) : Stepped → Stepped
  | .next t => .next (u t)
  | .fault r => .fault r
  | .refused r => .refused r

@[simp] theorem onNext_next (u : State → State) (t : State) : onNext u (.next t) = .next (u t) := rfl
@[simp] theorem onNext_fault (u : State → State) (r : Fault) : onNext u (.fault r) = .fault r := rfl
@[simp] theorem onNext_refused (u : State → State) (r : Refusal) : onNext u (.refused r) = .refused r := rfl

theorem State.setFrame_comm {f g : Nat} (hg : g ≠ f) (s : State) (F G : Frame) :
    (s.setFrame g G).setFrame f F = (s.setFrame f F).setFrame g G := by
  simp [State.setFrame, List.set_comm G F hg]

section
variable {f g : Nat} (hg : g ≠ f) (G : Frame) (s : State)
include hg

/-- A continuation that carries `F[g] <- G` through is run on the same frame of context f. -/
theorem withFrame_setFrame_of_ne {k k' : Frame → Stepped} (hk : ∀ F, k' F = onNext (·.setFrame g G) (k F)) :
    withFrame f (s.setFrame g G) k' = onNext (·.setFrame g G) (withFrame f s k) := by
  have hget : (s.setFrame g G).ctx[f]? = s.ctx[f]? := List.getElem?_set_ne hg
  cases hF : s.ctx[f]? with
  | some F => rw [withFrame_of_get (hget.trans hF), withFrame_of_get hF, hk]
  | none =>
    have hout : s.ctx.length ≤ f := List.getElem?_eq_none_iff.1 hF
    rw [withFrame_out_of_range hout, withFrame_out_of_range (by simpa using hout), onNext_refused]

theorem assign_setFrame_of_ne (u : Frame → Frame) :
    assign f (s.setFrame g G) u = onNext (·.setFrame g G) (assign f s u) :=
  withFrame_setFrame_of_ne hg G s fun F => by rw [State.setFrame_comm hg]; rfl

theorem withDump_setFrame_of_ne {k : State → List Byte → Stepped}
    (hk : ∀ s' out, k (s'.setFrame g G) out = onNext (·.setFrame g G) (k s' out)) :
    withDump f (s.setFrame g G) k = onNext (·.setFrame g G) (withDump f s k) :=
  withFrame_setFrame_of_ne hg G s fun F => by
    cases F.dataFits with
    | true => exact hk (s.setAcc (sum8 (dumpBody F))) (dumpFrame F)
    | false => rfl

theorem execLoad_setFrame_of_ne (buf : List Byte) :
    execLoad f buf (s.setFrame g G) = onNext (·.setFrame g G) (execLoad f buf s) :=
  withFrame_setFrame_of_ne hg G s fun F => by
    simp only [State.setFrame_acc, State.setFrame_comm hg]
    cases (loadFrame F s.acc buf).error <;> rfl

theorem execSetdata_setFrame_of_ne (d : List Byte) :
    execSetdata f d (s.setFrame g G) = onNext (·.setFrame g G) (execSetdata f d s) := by
  unfold execSetdata
  split
  · exact assign_setFrame_of_ne hg G s _
  · rfl

/-- An operation on context f does not see what stands in another context, and leaves it there. -/
theorem exec_setFrame_of_ne {i : Instr} (hi : i.context? = some f) :
    exec i (s.setFrame g G) = onNext (·.setFrame g G) (exec i s) := by
  cases i with
  | csum | csumchk | addrenc | addrdec | ctrlenc | ctrldec | dataenc | datadec | structchk | reset => cases hi
  | fnew | setaddr | clraddr | setctrl | clrdata | setpver => cases hi; exact assign_setFrame_of_ne hg G s _
  | setdata _ d => cases hi; exact execSetdata_setFrame_of_ne hg G s d
  | load _ buf => cases hi; exact execLoad_setFrame_of_ne hg G s buf
  | dump =>
    cases hi
    exact withDump_setFrame_of_ne hg G s (k := fun s' out => .next (s'.answer (.bytes out))) fun _ _ => rfl
  | write _ wake =>
    cases hi
    exact withDump_setFrame_of_ne hg G s
      (k := fun s' out => .next ((s'.txWrite (preamble wake ++ out)).answer .unit)) fun _ _ => rfl
  | read => cases hi; exact withFrame_setFrame_of_ne hg G s fun _ => rfl

theorem finishRead_setFrame_of_ne (v : Version) :
    finishRead f v (s.setFrame g G) = onNext (·.setFrame g G) (finishRead f v s) := by
  unfold finishRead
  simp only [State.setFrame_ctrlDefault, State.setFrame_acc, State.setFrame_rxBuf, State.setFrame_ctx, List.length_set]
  cases (loadFrame (freshFrame s.ctrlDefault v) s.acc s.rxBuf).error with
  | some e => rfl
  | none =>
    by_cases hf : f < s.ctx.length
    · simp only [if_pos hf, onNext_next]
      exact congrArg (fun s' => (.next (State.succeed s') : Stepped)) (State.setFrame_comm hg ((s.setRx .idle).setAcc _) _ G)
    · simp only [if_neg hf, onNext_fault]

theorem readByte_setFrame_of_ne (v : Version) (b : Byte) :
    readByte f v b (s.setFrame g G) = onNext (·.setFrame g G) (readByte f v b s) := by
  have hfull : (s.setFrame g G).rxFull = s.rxFull := rfl
  unfold readByte
  rw [hfull]
  split_ifs
  · rfl
  · rfl
  · exact finishRead_setFrame_of_ne hg G (s.setRxBuf (s.rxBuf ++ [b])) v
  · rfl

theorem readStep_setFrame_of_ne (v : Version) :
    readStep f v (s.setFrame g G) = onNext (·.setFrame g G) (readStep f v s) := by
  have hsym : (s.setFrame g G).nextSymbol = s.nextSymbol := rfl
  unfold readStep
  rw [hsym]
  cases s.nextSymbol with
  | noByte => rfl
  | byte b => exact readByte_setFrame_of_ne hg G s.takeSymbol v b

end

/-- Settles O28: the operations and the READ step commute with an assignment to another context. -/
theorem operationsOnOneContextIgnoreTheOthers : Obligations.OperationsOnOneContextIgnoreTheOthers := by
  refine ⟨fun i f g G s t hi hg h => ?_, fun f g v G s t hr hl hg h => ?_⟩
  · rw [exec_setFrame_of_ne hg G s hi, h, onNext_next]
  · have hG : step (s.setFrame g G) = readStep f v ((s.setResetLine s.resetLine.tail).setFrame g G) :=
      step_of_accumulating hr hl
    rw [hG, readStep_setFrame_of_ne hg, ← step_of_accumulating hr hl, h, onNext_next]

end Sys2Proof.Machine
end

section
/-! What a step leaves behind: the histories and parameters, `STATUS.ERR`, and the raw bytes (10_state R17, R27, R31). -/

namespace Sys2Proof.Machine

/-- A READ step that answers a next state takes one symbol, and goes on, ends with an error, or ends Ok with one frame assigned
(42_stream R106). -/
theorem readStep_next {f : Nat} {v : Version} {s t : State} (h : readStep f v s = .next t) :
    ∃ buf, t = s.takeSymbol.setRxBuf buf ∨
      ∃ a, (∃ e, t = (((s.takeSymbol.setRxBuf buf).setRx .idle).setAcc a).raise e) ∨
        ∃ F, t = ((((s.takeSymbol.setRxBuf buf).setRx .idle).setAcc a).setFrame f F).succeed := by
  unfold readStep at h
  cases hsym : s.nextSymbol with
  | noByte =>
    rw [hsym] at h
    cases h
    exact ⟨s.rxBuf, .inr ⟨s.acc, .inl ⟨.timeoutError, rfl⟩⟩⟩
  | byte b =>
    rw [hsym] at h
    rcases readByte_cases f v b s.takeSymbol with ⟨_, hb⟩ | ⟨_, _, hb⟩ | ⟨_, _, _, hb⟩ | ⟨_, _, _, hb⟩
    · cases hb.symm.trans h
      exact ⟨s.rxBuf, .inl rfl⟩
    · cases hb.symm.trans h
      exact ⟨s.rxBuf, .inr ⟨s.acc, .inl ⟨.overflowFault, rfl⟩⟩⟩
    · cases hb.symm.trans h
      exact ⟨_, .inl rfl⟩
    · replace h := hb.symm.trans h
      rcases finishRead_cases f v (s.takeSymbol.setRxBuf (s.takeSymbol.rxBuf ++ [b])) with
        ⟨e, _, hf⟩ | ⟨_, _, hf⟩ | ⟨_, _, hf⟩
      · cases hf.symm.trans h
        exact ⟨_, .inr ⟨_, .inl ⟨e, rfl⟩⟩⟩
      · cases hf.symm.trans h
        exact ⟨_, .inr ⟨_, .inr ⟨_, rfl⟩⟩⟩
      · cases hf.symm.trans h

/-- From s to t no parameter changed, at most one outcome and one sent sequence were added, and at most the first symbol of the
source was taken. -/
def KeepsHistory (s t : State) : Prop :=
  t.rxBufMax = s.rxBufMax ∧ t.ctrlDefault = s.ctrlDefault ∧ t.ctx.length = s.ctx.length ∧
  (t.results = s.results ∨ ∃ r, t.results = s.results ++ [r]) ∧ (t.sink = s.sink ∨ ∃ x, t.sink = s.sink ++ [x]) ∧
  ((t.source = s.source ∧ t.rxTaken = s.rxTaken) ∨ (t.source = s.source.drop 1 ∧ t.rxTaken = s.rxTaken + 1))

theorem readStep_keepsHistory {f : Nat} {v : Version} {s t : State} (h : readStep f v s = .next t) : KeepsHistory s t := by
  obtain ⟨buf, rfl | ⟨a, ⟨e, rfl⟩ | ⟨F, rfl⟩⟩⟩ := readStep_next h
  · exact ⟨rfl, rfl, rfl, .inl rfl, .inl rfl, .inr ⟨rfl, rfl⟩⟩
  · exact ⟨rfl, rfl, rfl, .inr ⟨_, rfl⟩, .inl rfl, .inr ⟨rfl, rfl⟩⟩
  · exact ⟨rfl, rfl, by simp, .inr ⟨_, rfl⟩, .inl rfl, .inr ⟨rfl, rfl⟩⟩

theorem exec_keepsHistory {i : Instr} {s t : State} (h : exec i s = .next t) : KeepsHistory s t := by
  rcases exec_next h with ⟨_, _, a, v, rfl⟩ | ⟨_, _, f, F, g, _, _, rfl, _, _⟩ | ⟨f, F, buf, _, _, rfl⟩ |
    ⟨f, F, v, _, _, rfl⟩ | ⟨f, F, w, _, _, rfl⟩ | ⟨_, rfl⟩
  · exact ⟨rfl, rfl, rfl, .inr ⟨_, rfl⟩, .inl rfl, .inl ⟨rfl, rfl⟩⟩
  · exact ⟨rfl, rfl, by simp, .inr ⟨_, rfl⟩, .inl rfl, .inl ⟨rfl, rfl⟩⟩
  · exact ⟨by simp, by simp, by simp, .inr ⟨_, State.finish_results _ _⟩, .inl (by simp), .inl (by simp)⟩
  · exact ⟨rfl, rfl, rfl, .inl rfl, .inl rfl, .inl ⟨rfl, rfl⟩⟩
  · exact ⟨rfl, rfl, rfl, .inr ⟨_, rfl⟩, .inr ⟨_, rfl⟩, .inl ⟨rfl, rfl⟩⟩
  · exact ⟨rfl, rfl, by simp, .inr ⟨_, rfl⟩, .inl rfl, .inl ⟨rfl, rfl⟩⟩

/-- Settles O54: by what a step can be; the reset input's sample and the issued command, which it takes off, are no part
of the claim. -/
theorem historiesOnlyGrowAndParametersStay : Obligations.HistoriesOnlyGrowAndParametersStay := by
  intro s t h
  rcases step_cases s with ⟨l, _, hs⟩ | ⟨_, s', rfl, ⟨f, v, _, hs⟩ | ⟨_, _, hs⟩ | ⟨_, _, _, _, _, _, hs⟩ |
    ⟨_, cs, i, _, _, _, hs⟩⟩ <;> rw [hs] at h
  · cases h
    exact ⟨rfl, rfl, State.resetBlock_length s, .inl rfl, .inl rfl, .inl ⟨rfl, rfl⟩⟩
  · have hk := readStep_keepsHistory h
    exact hk
  · cases h
    exact ⟨rfl, rfl, rfl, .inl rfl, .inl rfl, .inl ⟨rfl, rfl⟩⟩
  · cases h
  · have hk := exec_keepsHistory h
    exact hk

/-- Only LOAD and RESET write `STATUS.ERR` when they are issued. -/
theorem exec_keeps_statusErr {i : Instr} {s t : State} (h : exec i s = .next t) (hload : ∀ f b, i ≠ .load f b)
    (hreset : i ≠ .reset) : t.statusErr = s.statusErr := by
  rcases exec_next h with ⟨_, _, a, v, rfl⟩ | ⟨_, _, f, F, g, _, _, rfl, _, _⟩ | ⟨f, F, buf, hi, _, _⟩ |
    ⟨f, F, v, _, _, rfl⟩ | ⟨f, F, w, _, _, rfl⟩ | ⟨hi, _⟩
  · rfl
  · rfl
  · exact absurd hi (hload f buf)
  · rfl
  · rfl
  · exact absurd hi hreset

/-- LOAD and READ leave the code of the outcome they hand over (60_exceptions R124). -/
theorem State.finish_outcome (s : State) (o : Option OpError) :
    ((s.finish o).results = s.results ++ [.ok .unit] ∧ (s.finish o).statusErr = 0) ∨
    ∃ e, (s.finish o).results = s.results ++ [.error e] ∧ (s.finish o).statusErr = errorCode e := by
  cases o with
  | none => exact .inl ⟨rfl, rfl⟩
  | some e => exact .inr ⟨e, rfl, rfl⟩

/-- Settles O55: LOAD by `finish_outcome`, a READ step by the three ways it can go. -/
theorem statusErrHoldsTheLatestLoadOrReadOutcome : Obligations.StatusErrHoldsTheLatestLoadOrReadOutcome := by
  refine ⟨fun i s t h hload hreset => exec_keeps_statusErr h hload hreset, fun f b s t h => ?_, fun s t f v hr hl h => ?_⟩
  · obtain ⟨F, _, hk⟩ := withFrame_next h
    cases hk
    exact State.finish_outcome _ _
  · rw [step_of_accumulating hr hl] at h
    obtain ⟨buf, rfl | ⟨a, ⟨e, rfl⟩ | ⟨F, rfl⟩⟩⟩ := readStep_next h
    · exact .inl ⟨hr, rfl, rfl⟩
    · exact .inr (.inr ⟨rfl, e, rfl, rfl⟩)
    · exact .inr (.inl ⟨rfl, rfl, rfl⟩)

/-- A frame assigned with its raw bytes kept leaves the raw bytes of every context. -/
theorem State.setFrame_keeps_raw {s : State} {f : Nat} {F G : Frame} (hF : s.ctx[f]? = some F) (hG : G.raw = F.raw) (k : Nat) :
    ((s.setFrame f G).ctx[k]?).map (·.raw) = (s.ctx[k]?).map (·.raw) := by
  rw [State.setFrame_ctx, List.getElem?_set]
  by_cases hk : f = k
  · subst hk
    obtain ⟨hlt, rfl⟩ := List.getElem?_eq_some_iff.1 hF
    simp [hlt, hG]
  · simp [hk]

/-- Settles O56: an operation that assigns a frame and is not FNEW keeps the frame's raw bytes. -/
theorem rawBytesOutliveFieldWrites : Obligations.RawBytesOutliveFieldWrites := by
  intro i s t h hfnew hload hreset k
  rcases exec_next h with ⟨_, _, a, v, rfl⟩ | ⟨_, _, f, F, g, hF, _, rfl, hraw, _⟩ | ⟨f, F, buf, hi, _, _⟩ |
    ⟨f, F, v, _, _, rfl⟩ | ⟨f, F, w, _, _, rfl⟩ | ⟨hi, _⟩
  · rfl
  · rcases hraw with ⟨v, hi⟩ | hraw
    · exact absurd hi (hfnew f v)
    · exact State.setFrame_keeps_raw hF hraw k
  · exact absurd hi (hload f buf)
  · rfl
  · rfl
  · exact absurd hi hreset

end Sys2Proof.Machine
end

section
/-! The hex strings read back (40_field_codecs R75, R76), and the host's reads of absent and present registers (10_state R34). -/

namespace Sys2Proof

@[simp] theorem hex_length (s : List Byte) : (hex s).length = 2 * s.length := by
  induction s with
  | nil => rfl
  | cons b s ih => simp only [hex, List.length_cons, ih]; omega

@[simp] theorem hexValue_hexDigit (v : BitVec 4) : hexValue (hexDigit v) = some v := by
  revert v
  decide

theorem append_nibbles (b : Byte) : (b.extractLsb' 4 4 ++ b.extractLsb' 0 4 : BitVec 8) = b := by
  rw [BitVec.extractLsb'_append_extractLsb'_eq_extractLsb' (by rfl)]
  exact BitVec.extractLsb'_eq_self

/-- `Unhex(Hex(s)) = s` (40_field_codecs R76). -/
@[simp] theorem unhex_hex (s : List Byte) : unhex (hex s) = some s := by
  induction s with
  | nil => rfl
  | cons b s ih => simp only [hex, unhex, hexValue_hexDigit, ih, append_nibbles]

end Sys2Proof

namespace Sys2Proof.Machine

theorem hostIdle_of_idle {s : State} (hr : s.rx = .idle) : hostIdle s = .ok () := by simp [hostIdle, hr]

theorem hostFrame_of_get {s : State} {f : Nat} {F : Frame} (hF : s.ctx[f]? = some F) : hostFrame s f = .ok F := by
  simp [hostFrame, hF]

theorem hostRead_of_idle {s : State} (hr : s.rx = .idle) (r : Reg) : hostRead s r = readRegister s r := by
  rw [hostRead, hostIdle_of_idle hr]
  rfl

section
variable {s : State} {f : Nat} {F : Frame} (hr : s.rx = .idle) (hF : s.ctx[f]? = some F)
include hr hF

theorem hostRead_addr : hostRead s (.addr f) = (ifPresent F.addr).map fun a => .bytes a.bytes := by
  rw [hostRead_of_idle hr, readRegister, hostFrame_of_get hF]
  rfl

theorem hostRead_data : hostRead s (.data f) = (ifPresent F.data).map .bytes := by
  rw [hostRead_of_idle hr, readRegister, hostFrame_of_get hF]
  rfl

theorem hostRead_raw : hostRead s (.raw f) = (ifPresent F.raw).map .bytes := by
  rw [hostRead_of_idle hr, readRegister, hostFrame_of_get hF]
  rfl

theorem addrString_eq : addrString s f = (ifPresent F.addr).map fun a => hex a.bytes := by
  rw [addrString, hostIdle_of_idle hr, hostFrame_of_get hF]
  rfl

theorem dataString_eq : dataString s f = (ifPresent F.data).map hex := by
  rw [dataString, hostIdle_of_idle hr, hostFrame_of_get hF]
  rfl

end

/-- Settles O59: a host read of an idle block is the register's Option, and its string is read back by `unhex_hex`. -/
theorem hostReadsGiveNoValueForAbsentRegisters : Obligations.HostReadsGiveNoValueForAbsentRegisters := by
  constructor
  · intro s f F hr hF
    rw [hostRead_addr hr hF, hostRead_data hr hF, hostRead_raw hr hF, addrString_eq hr hF, dataString_eq hr hF]
    refine ⟨fun h => by rw [h]; rfl, fun h => by rw [h]; rfl, fun h => by rw [h]; rfl, fun a h => ?_, fun d h => ?_,
      fun r h => by rw [h]; rfl⟩
    · rw [h]
      exact ⟨rfl, hex a.bytes, rfl, by simp, unhex_hex a.bytes⟩
    · rw [h]
      exact ⟨rfl, hex d, rfl, by simp [Frame.dlen, h], unhex_hex d⟩
  · intro s r f v hr
    rw [hostRead, hostIdle, hr]
    rfl

end Sys2Proof.Machine
end

section
/-! The state right after reset (10_state R32). -/

namespace Sys2Proof.Machine

@[simp] theorem freshFrame_dlen (c : Byte) (v : Version) : (freshFrame c v).dlen = 0 := rfl

theorem reset_ctx : State.reset.ctx = List.replicate Config.nctx (freshFrame Config.ctrlDefault .a) := rfl

theorem one_le_reset_length : 1 ≤ State.reset.ctx.length := by
  rw [reset_ctx, List.length_replicate]
  exact Nat.succ_pos Config.nctxLessOne

theorem eq_freshFrame_of_mem_reset {F : Frame} (hF : F ∈ State.reset.ctx) : F = freshFrame Config.ctrlDefault .a :=
  List.eq_of_mem_replicate hF

/-- A bounded reader's buffer holds the longest frame (00_scope R9). -/
theorem frameMax_le_rxBufMax {m : Nat} (h : Config.rxBufMax = some m) : FRAME_MAX ≤ m := by
  obtain ⟨n, _, rfl⟩ := Option.map_eq_some_iff.1 h
  exact Nat.le_add_left FRAME_MAX n

/-- Settles O51: every context is `Fresh(A)`, for every value of the open parameters. -/
theorem resetStateIsThatOfR32 : Obligations.ResetStateIsThatOfR32 := by
  refine ⟨one_le_reset_length, fun F hF => ?_, rfl, rfl, rfl, rfl, fun m hm => frameMax_le_rxBufMax hm⟩
  rw [eq_freshFrame_of_mem_reset hF]
  exact ⟨rfl, rfl, rfl, rfl, rfl⟩

theorem reset_typed : State.reset.typed = true := by
  have hfits : State.reset.ctx.all (·.dataFits) = true :=
    List.all_eq_true.2 fun F hF => by rw [eq_freshFrame_of_mem_reset hF]; rfl
  have hbuf : State.reset.rxBuf.length = 0 := rfl
  have herr : State.reset.statusErr.toNat = 0 := rfl
  unfold State.typed
  rw [decide_eq_true one_le_reset_length, hfits, hbuf, herr]
  cases State.reset.rxBufMax <;> simp

/-- Settles O53: the registers are within their types, and an empty buffer of an idle reader is clean. -/
theorem resetStateIsSound : Obligations.ResetStateIsSound := by
  have hreader : State.reset.readerSound = true := rfl
  unfold Obligations.ResetStateIsSound State.sound
  rw [reset_typed, hreader, Bool.and_self]

end Sys2Proof.Machine
end

section
/-! A step with the reset input deasserted: the next command's operation, or one symbol of a READ in progress (20_memory R45, R46). -/

namespace Sys2Proof.Machine

/-- With the reset input deasserted a step only takes off its sample before it proceeds (70_reset R156). -/
theorem step_eq_proceed {s : State} (hl : s.resetLine.head? ≠ some true) :
    step s = proceed (s.setResetLine s.resetLine.tail) := by
  unfold step advance
  split
  case h_1 l h => exact absurd (by rw [h]; rfl) hl
  case h_2 l h => rw [h]; rfl
  case h_3 h =>
    have hs : s = s.setResetLine s.resetLine.tail := by
      rw [h]
      exact congrArg s.setResetLine h
    exact congrArg proceed hs

/-- While the reader is idle and the reset input is deasserted a step issues the host's next command. -/
theorem step_of_idle {s : State} (hr : s.rx = .idle) (hl : s.resetLine.head? ≠ some true) :
    step s = issue (s.setResetLine s.resetLine.tail) := by
  rw [step_eq_proceed hl, proceed, State.setResetLine_rx, hr]

theorem issue_of_decode {s : State} {c : Command} {cs : List Command} {i : Instr} (hp : s.pending = c :: cs)
    (hd : decode c = .ok i) : issue s = exec i (s.setPending cs) := by
  simp only [issue, hp, hd]

/-- Settles O6: the idle step issues, and what it issues is `exec` of the decoded command. -/
theorem stepDoesTheDecodedOperation : Obligations.StepDoesTheDecodedOperation := by
  intro s c cs i hr hl hp hd
  exact (step_of_idle hr hl).trans (issue_of_decode hp hd)

/-- The end of a READ into an existing context answers a next state: the fault is that of a missing one. -/
theorem finishRead_isNext {f : Nat} {s : State} (hf : f < s.ctx.length) (v : Version) :
    ∃ t, finishRead f v s = .next t := by
  rcases finishRead_cases f v s with ⟨e, _, h⟩ | ⟨_, _, h⟩ | ⟨_, hle, _⟩
  · exact ⟨_, h⟩
  · exact ⟨_, h⟩
  · exact absurd hf (Nat.not_lt.2 hle)

theorem readByte_isNext {f : Nat} {s : State} (hf : f < s.ctx.length) (v : Version) (b : Byte) :
    ∃ t, readByte f v b s = .next t := by
  rcases readByte_cases f v b s with ⟨_, h⟩ | ⟨_, _, h⟩ | ⟨_, _, _, h⟩ | ⟨_, _, _, h⟩
  · exact ⟨_, h⟩
  · exact ⟨_, h⟩
  · exact ⟨_, h⟩
  · rw [h]
    exact finishRead_isNext (s := s.setRxBuf (s.rxBuf ++ [b])) hf v

theorem readStep_isNext {f : Nat} {s : State} (hf : f < s.ctx.length) (v : Version) :
    ∃ t, readStep f v s = .next t := by
  unfold readStep
  cases s.nextSymbol with
  | noByte => exact ⟨_, rfl⟩
  | byte b => exact readByte_isNext (s := s.takeSymbol) hf v b

/-- Settles O7: with its context there the READ step answers a next state, and each of the three ways it can go
takes one symbol and leaves the host's commands, the sink and the reset input alone. -/
theorem readInProgressTakesOneSymbolAndRunsAlone : Obligations.ReadInProgressTakesOneSymbolAndRunsAlone := by
  intro s f v hr hf hl
  obtain ⟨t, ht⟩ := readStep_isNext (s := s.setResetLine s.resetLine.tail) hf v
  refine ⟨t, (step_of_accumulating hr hl).trans ht, ?_⟩
  obtain ⟨buf, rfl | ⟨a, ⟨e, rfl⟩ | ⟨F, rfl⟩⟩⟩ := readStep_next ht
  · exact ⟨rfl, rfl, rfl, rfl, rfl⟩
  · exact ⟨rfl, rfl, rfl, rfl, rfl⟩
  · exact ⟨rfl, rfl, rfl, rfl, rfl⟩

end Sys2Proof.Machine
end

section
/-! The operand types both ways (30_encoding R67): what each reader of operands answers on the operands the encoder writes, and
what the operands were when it answers a value. -/

namespace Sys2Proof

@[simp] theorem fieldOperand_toNat {w : Nat} (x : BitVec w) : fieldOperand w x.toNat = .ok x := by
  simp [fieldOperand, x.isLt]

@[simp] theorem fieldOperand_bit (b : Bool) : fieldOperand 1 b.toNat = .ok (BitVec.ofBool b) := by cases b <;> rfl

theorem fieldOperand_eq_ok {w n : Nat} {x : BitVec w} (h : fieldOperand w n = .ok x) : x.toNat = n := by
  unfold fieldOperand at h
  split at h
  · cases h
    exact Nat.mod_eq_of_lt ‹_›
  · cases h

theorem controlOperands_toNat (d r m : Bool) (f : BitVec 5) :
    controlOperands d.toNat r.toNat m.toNat f.toNat = .ok ⟨d, r, m, f⟩ := by
  simp [controlOperands, bind, Except.bind, pure, Except.pure]

theorem except_bind_eq_ok {ε α β : Type} {x : Except ε α} {k : α → Except ε β} {b : β} (h : x >>= k = .ok b) :
    ∃ a, x = .ok a ∧ k a = .ok b := by
  cases x with
  | ok a => exact ⟨a, rfl, h⟩
  | error e => cases h

theorem except_map_eq_ok {ε α β : Type} {x : Except ε α} {g : α → β} {b : β} (h : x.map g = .ok b) :
    ∃ a, x = .ok a ∧ g a = b := by
  cases x with
  | ok a => exact ⟨a, rfl, Except.ok.inj h⟩
  | error e => cases h

theorem toNat_getLsbD_zero (x : BitVec 1) : (x.getLsbD 0).toNat = x.toNat := by revert x; decide

theorem controlNums_of_controlOperands {d r m f : Nat} {c : Control} (h : controlOperands d r m f = .ok c) :
    controlNums c.dir c.resp c.more c.func = [.num d, .num r, .num m, .num f] := by
  obtain ⟨xd, hd, h⟩ := except_bind_eq_ok h
  obtain ⟨xr, hr, h⟩ := except_bind_eq_ok h
  obtain ⟨xm, hm, h⟩ := except_bind_eq_ok h
  obtain ⟨xf, hf, h⟩ := except_bind_eq_ok h
  cases h
  simp only [controlNums, toNat_getLsbD_zero, fieldOperand_eq_ok hd, fieldOperand_eq_ok hr, fieldOperand_eq_ok hm,
    fieldOperand_eq_ok hf]

@[simp] theorem Operand.asBytes_ctx (f : Nat) : (Operand.ctx f).asBytes = .ctx f := rfl
@[simp] theorem Operand.asBytes_num (n : Nat) : (Operand.num n).asBytes = .num n := rfl

theorem asBytes_of_sequenceOperand {o : Operand} {s : List Byte} (h : sequenceOperand o = .ok s) : o.asBytes = .bytes s := by
  cases o with
  | bytes _ => cases h; rfl
  | hex t =>
    cases ht : unhex t with
    | some s' =>
      simp only [sequenceOperand, ht] at h
      cases h
      simp only [Operand.asBytes, ht]
    | none => simp [sequenceOperand, ht] at h
  | ctx | num | absent => cases h

theorem addrOperand_bytes (a : Addr) : addrOperand (.bytes a.bytes) = .ok a := rfl

theorem asBytes_of_addrOperand {o : Operand} {a : Addr} (h : addrOperand o = .ok a) : o.asBytes = .bytes a.bytes := by
  obtain ⟨s, hs, h⟩ := except_bind_eq_ok h
  cases ha : Addr.ofBytes s with
  | some a' =>
    simp only [ha] at h
    cases h
    rw [asBytes_of_sequenceOperand hs, Addr.ofBytes_eq_some ha]
  | none => simp [ha] at h

theorem dataOperand_bytes {d : List Byte} (hd : d.length ≤ N_MAX) : dataOperand (.bytes d) = .ok d := if_pos hd

theorem asBytes_of_dataOperand {o : Operand} {d : List Byte} (h : dataOperand o = .ok d) :
    o.asBytes = .bytes d ∧ d.length ≤ N_MAX := by
  obtain ⟨s, hs, h⟩ := except_bind_eq_ok h
  split at h
  · cases h
    exact ⟨asBytes_of_sequenceOperand hs, ‹_›⟩
  · cases h

end Sys2Proof
end

section
/-! The command of an operation: decoding what is encoded, and encoding what is decoded (30_encoding R66, R67, R72). -/

namespace Sys2Proof

theorem decode_of_decodeByte {c : Command} {m : Mnemonic} (h : decodeByte c.byte = some m) :
    decode c = assemble m (versionOfByte c.byte) (wakeOfByte c.byte) c.operands := by
  simp only [decode, h]

open Laws in
/-- The byte written for an operation selects its own row (30_encoding R66). -/
theorem decodeByte_encode : ∀ i : Instr, decodeByte (encode i).byte = some i.mnemonic
  | .csum s => SelectsItsRow.csum s
  | .csumchk s => SelectsItsRow.csumchk s
  | .addrenc a => SelectsItsRow.addrenc a
  | .addrdec w => SelectsItsRow.addrdec w
  | .ctrlenc d r m f => SelectsItsRow.ctrlenc d r m f
  | .ctrldec c => SelectsItsRow.ctrldec c
  | .dataenc d => SelectsItsRow.dataenc d
  | .datadec w => SelectsItsRow.datadec w
  | .structchk s => SelectsItsRow.structchk s
  | .fnew f v => SelectsItsRow.fnew f v
  | .setaddr f a => SelectsItsRow.setaddr f a
  | .clraddr f => SelectsItsRow.clraddr f
  | .setctrl x d r m f => SelectsItsRow.setctrl x d r m f
  | .setdata f d => SelectsItsRow.setdata f d
  | .clrdata f => SelectsItsRow.clrdata f
  | .setpver f v => SelectsItsRow.setpver f v
  | .load f s => SelectsItsRow.load f s
  | .dump f => SelectsItsRow.dump f
  | .read f v => SelectsItsRow.read f v
  | .write f w => SelectsItsRow.write f w
  | .reset => SelectsItsRow.reset

theorem versionOfByte_or_bits {b : Byte} (hb : b[6] = false) (v : Version) : versionOfByte (b ||| v.bits) = v := by
  cases v <;> simp [versionOfByte, Version.bits, hb]

theorem wakeOfByte_or_wakeBits {b : Byte} (hb : b[7] = false) (w : Bool) : wakeOfByte (b ||| wakeBits w) = w := by
  cases w <;> simp [wakeOfByte, wakeBits, hb]

/-- The operands written for an operation are read back as that operation, its tags coming from its command byte. -/
theorem assemble_encode {i : Instr} (h : i.wellFormed = true) :
    assemble i.mnemonic (versionOfByte (encode i).byte) (wakeOfByte (encode i).byte) (encode i).operands = .ok i := by
  cases i with
  | csum | datadec | structchk | addrdec | setaddr | clraddr | clrdata | load | dump | reset => rfl
  | fnew _ v | setpver _ v | read _ v => simp [encode, Instr.mnemonic, assemble, versionOfByte_or_bits]
  | write _ w => simp [encode, Instr.mnemonic, assemble, wakeOfByte_or_wakeBits]
  | addrenc a => cases a <;> rfl
  | ctrlenc d r m f | setctrl _ d r m f => exact congrArg (Except.map _) (controlOperands_toNat d r m f)
  | ctrldec c => exact congrArg (Except.map _) (fieldOperand_toNat c)
  | csumchk s => exact if_pos (of_decide_eq_true h)
  | setdata _ d => exact congrArg (Except.map _) (dataOperand_bytes (of_decide_eq_true h))
  | dataenc d =>
    cases d with
    | none => rfl
    | some d => exact congrArg (Except.map _) (dataOperand_bytes (of_decide_eq_true h))

/-- Settles O1: the byte selects the operation's row, and the row reads the operands back. -/
theorem decodeOfEncodeIsTheOperation : Obligations.DecodeOfEncodeIsTheOperation := fun i h =>
  (decode_of_decodeByte (decodeByte_encode i)).trans (assemble_encode h)

/-- The command byte of a row with the tags given: V where the row's mask leaves bit 6 free, W where it leaves bit 7
(30_encoding R65, R66). -/
def Mnemonic.byte (m : Mnemonic) (v : Version) (wake : Bool) : Byte :=
  match m with
  | .csum => 0x00 | .csumchk => 0x01 | .addrenc => 0x02 | .addrdec => 0x03 | .ctrlenc => 0x04 | .ctrldec => 0x05
  | .dataenc => 0x06 | .datadec => 0x07 | .structchk => 0x08
  | .fnew => 0x10 ||| v.bits
  | .setaddr => 0x11 | .clraddr => 0x12 | .setctrl => 0x13 | .setdata => 0x14 | .clrdata => 0x15
  | .setpver => 0x16 ||| v.bits
  | .load => 0x18 | .dump => 0x19
  | .read => 0x1a ||| v.bits
  | .write => 0x1b ||| wakeBits wake
  | .reset => 0x1f

/-- A command byte is its row's byte with the tags read off it; over the 256 bytes. -/
theorem byte_of_decodeByte {c : Byte} {m : Mnemonic} (h : decodeByte c = some m) :
    m.byte (versionOfByte c) (wakeOfByte c) = c := by
  have key : ∀ c : Byte, ∀ m ∈ decodeByte c, m.byte (versionOfByte c) (wakeOfByte c) = c := by decide +kernel
  exact key c m h

/-- When a row reads its operands as an operation, they and the row's byte are what the encoder writes for it. -/
theorem encode_of_assemble {m : Mnemonic} {v : Version} {wake : Bool} {ops : List Operand} {i : Instr}
    (h : assemble m v wake ops = .ok i) :
    encode i = ⟨m.byte v wake, ops.map (·.asBytes)⟩ ∧ i.wellFormed = true := by
  cases m with
  | csum | datadec | structchk | fnew | clraddr | clrdata | setpver | load | dump | read | write | reset =>
    simp only [assemble] at h
    split at h <;> cases h
    exact ⟨rfl, rfl⟩
  | csumchk =>
    simp only [assemble] at h
    split at h
    · split at h <;> cases h
      exact ⟨rfl, decide_eq_true ‹_›⟩
    · cases h
  | addrenc =>
    simp only [assemble] at h
    split at h
    · cases h
      exact ⟨rfl, rfl⟩
    · obtain ⟨a, ha, rfl⟩ := except_map_eq_ok h
      simp [encode, Mnemonic.byte, Instr.wellFormed, asBytes_of_addrOperand ha]
    · cases h
  | addrdec | setaddr =>
    simp only [assemble] at h
    split at h
    · obtain ⟨a, ha, rfl⟩ := except_map_eq_ok h
      simp [encode, Mnemonic.byte, Instr.wellFormed, asBytes_of_addrOperand ha]
    · cases h
  | ctrlenc | setctrl =>
    simp only [assemble] at h
    split at h
    · obtain ⟨c, hc, rfl⟩ := except_map_eq_ok h
      simp [encode, Mnemonic.byte, Instr.wellFormed, controlNums_of_controlOperands hc]
    · cases h
  | ctrldec =>
    simp only [assemble] at h
    split at h
    · obtain ⟨c, hc, rfl⟩ := except_map_eq_ok h
      simp [encode, Mnemonic.byte, Instr.wellFormed, fieldOperand_eq_ok hc]
    · cases h
  | dataenc =>
    simp only [assemble] at h
    split at h
    · cases h
      exact ⟨rfl, rfl⟩
    · obtain ⟨d, hd, rfl⟩ := except_map_eq_ok h
      obtain ⟨hbytes, hlen⟩ := asBytes_of_dataOperand hd
      simp [encode, Mnemonic.byte, Instr.wellFormed, hbytes, hlen]
    · cases h
  | setdata =>
    simp only [assemble] at h
    split at h
    · obtain ⟨d, hd, rfl⟩ := except_map_eq_ok h
      obtain ⟨hbytes, hlen⟩ := asBytes_of_dataOperand hd
      simp [encode, Mnemonic.byte, Instr.wellFormed, hbytes, hlen]
    · cases h

theorem decode_eq_ok {c : Command} {i : Instr} (h : decode c = .ok i) :
    ∃ m, decodeByte c.byte = some m ∧ assemble m (versionOfByte c.byte) (wakeOfByte c.byte) c.operands = .ok i := by
  cases hm : decodeByte c.byte with
  | none => simp [decode, hm] at h
  | some m => exact ⟨m, rfl, (decode_of_decodeByte hm).symm.trans h⟩

/-- Settles O2: the operands are read off the operation, and the byte off the row and its tags. -/
theorem encodeOfDecodeIsTheCommand : Obligations.EncodeOfDecodeIsTheCommand := by
  intro c i h
  obtain ⟨m, hm, ha⟩ := decode_eq_ok h
  obtain ⟨henc, hwf⟩ := encode_of_assemble ha
  rw [byte_of_decodeByte hm] at henc
  exact ⟨henc, hwf⟩

end Sys2Proof
end

section
/-! The command bytes: one row or none (30_encoding R74), the reserved ones (R68), and a few written out (R65, R66). -/

namespace Sys2Proof

/-- The rows' match/mask pairs are disjoint: two rows whose patterns agree where both masks look are the same row
(30_encoding R74). -/
theorem opTable_disjoint : ∀ r ∈ opTable, ∀ r' ∈ opTable, r.pattern &&& r'.mask = r'.pattern &&& r.mask → r = r' := by
  decide

theorem row_unique {c : Byte} {r r' : Row} (hr : r ∈ opTable) (hr' : r' ∈ opTable) (h : r.selects c = true)
    (h' : r'.selects c = true) : r' = r := by
  have hc : c &&& r.mask = r.pattern := eq_of_beq h
  have hc' : c &&& r'.mask = r'.pattern := eq_of_beq h'
  refine opTable_disjoint r' hr' r hr ?_
  rw [← hc, ← hc', BitVec.and_assoc, BitVec.and_assoc, BitVec.and_comm r.mask]

theorem row_of_decodeByte {c : Byte} {m : Mnemonic} (h : decodeByte c = some m) :
    ∃ r ∈ opTable, r.selects c = true ∧ r.op = m := by
  obtain ⟨r, hr, hm⟩ := Option.map_eq_some_iff.1 h
  exact ⟨r, List.mem_of_find?_eq_some hr, List.find?_some (p := fun r : Row => r.selects c) hr, hm⟩

theorem no_row_of_decodeByte {c : Byte} (h : decodeByte c = none) : ∀ r ∈ opTable, r.selects c = false := by
  intro r hr
  simpa using List.find?_eq_none.1 (Option.map_eq_none_iff.1 h) r hr

theorem decode_of_reserved {c : Byte} (h : decodeByte c = none) (ops : List Operand) :
    decode ⟨c, ops⟩ = .error (.reservedCommand c) := by
  simp only [decode, h]

/-- Settles O3: `decodeByte` finds a row or finds none, and the rows are disjoint. -/
theorem everyCommandByteIsOneRowOrReserved : Obligations.EveryCommandByteIsOneRowOrReserved := by
  intro c
  cases hc : decodeByte c with
  | none => exact .inr ⟨no_row_of_decodeByte hc, decode_of_reserved hc⟩
  | some m =>
    obtain ⟨r, hr, hsel, rfl⟩ := row_of_decodeByte hc
    exact .inl ⟨r, hr, hsel, fun r' hr' hsel' => row_unique hr hr' hsel hsel', rfl⟩

/-- No row reads two absent operands (30_encoding R67). -/
theorem assemble_two_absent (m : Mnemonic) (v : Version) (wake : Bool) :
    assemble m v wake [.absent, .absent] = .error .operandShape := by
  cases m <;> rfl

theorem reserved_iff_decodeByte (c : Byte) :
    (∀ ops, decode ⟨c, ops⟩ = .error (.reservedCommand c)) ↔ decodeByte c = none := by
  refine ⟨fun h => ?_, decode_of_reserved⟩
  cases hm : decodeByte c with
  | none => rfl
  | some m =>
    have hshape : decode ⟨c, [.absent, .absent]⟩ = .error .operandShape :=
      (decode_of_decodeByte hm).trans (assemble_two_absent m _ _)
    cases hshape.symm.trans (h [.absent, .absent])

/-- R68's list of the reserved bytes, over the 256 bytes. -/
theorem decodeByte_eq_none_iff (c : Byte) : decodeByte c = none ↔
    (c.getLsbD 5 = true ∨
     c.toNat % 32 ∈ [0x09, 0x0a, 0x0b, 0x0c, 0x0d, 0x0e, 0x0f, 0x17, 0x1c, 0x1d, 0x1e] ∨
     (c.getLsbD 7 = true ∧ c.toNat % 32 ≠ 0x1b) ∨
     (c.getLsbD 6 = true ∧ c.toNat % 32 ∉ [0x10, 0x16, 0x1a])) := by
  revert c
  decide +kernel

end Sys2Proof

namespace Sys2Proof.Machine

theorem issue_of_decode_error {s : State} {c : Command} {cs : List Command} {e : DecodeError} (hp : s.pending = c :: cs)
    (hd : decode c = .error e) : issue s = .refused (.undecodable e) := by
  simp only [issue, hp, hd]

/-- Settles O4: a byte is reserved when it selects no row, and the idle step refuses what does not decode. -/
theorem reservedCommandsAreRefused : Obligations.ReservedCommandsAreRefused := fun c =>
  ⟨(reserved_iff_decodeByte c).trans (decodeByte_eq_none_iff c), fun _ _ _ hd hr hl hp =>
    (step_of_idle hr hl).trans (issue_of_decode_error hp hd)⟩

/-- Settles O5, by running the decoder on each command. -/
theorem wordsWrittenOutDecodeRight : Obligations.WordsWrittenOutDecodeRight :=
  ⟨rfl, rfl, rfl, rfl, rfl, rfl, rfl, rfl, rfl, rfl⟩

/-- Settles O27: every operation that names a context goes through `withFrame`, SETDATA after its length check. -/
theorem contextsAtOrAboveNctxAreRefused : Obligations.ContextsAtOrAboveNctxAreRefused := by
  intro i f s hwf hi hf
  cases i with
  | csum | csumchk | addrenc | addrdec | ctrlenc | ctrldec | dataenc | datadec | structchk | reset => cases hi
  | fnew | setaddr | clraddr | setctrl | clrdata | setpver | load | dump | read | write =>
    cases hi
    exact withFrame_out_of_range hf
  | setdata _ d =>
    cases hi
    exact (if_pos (of_decide_eq_true hwf)).trans (withFrame_out_of_range hf)

end Sys2Proof.Machine
end

section
/-! The decoder on a command written out as byte and operands, and the reasons it refuses the operands of the codecs
(40_field_codecs R76, R80, R83, R85). -/

namespace Sys2Proof

theorem decode_of_assemble {b : Byte} {m : Mnemonic} {ops : List Operand} {r : Except DecodeError Instr}
    (hb : decodeByte b = some m) (h : assemble m (versionOfByte b) (wakeOfByte b) ops = r) : decode ⟨b, ops⟩ = r :=
  (decode_of_decodeByte hb).trans h

theorem addrOperand_of_length_ne {x : List Byte} (hx : x.length ≠ 6) : addrOperand (.bytes x) = .error .addressLength := by
  have hnone : Addr.ofBytes x = none := by
    rw [← Option.isNone_iff_eq_none, ← Option.not_isSome, Addr.ofBytes_isSome, decide_eq_false hx, Bool.not_false]
  simp only [addrOperand, sequenceOperand, bind, Except.bind, hnone]

theorem dataOperand_of_length_gt {d : List Byte} (hd : N_MAX < d.length) : dataOperand (.bytes d) = .error .dataTooLong :=
  if_neg (Nat.not_le.2 hd)

/-- A reader that answers `fieldTooWide` after a field that fits answers it after any field. -/
theorem fieldOperand_bind_tooWide {α : Type} {w n : Nat} {k : BitVec w → Except DecodeError α}
    (hk : n < 2 ^ w → ∀ x, k x = .error .fieldTooWide) : (fieldOperand w n >>= k) = .error .fieldTooWide := by
  unfold fieldOperand
  split
  case isTrue h => exact hk h _
  case isFalse => rfl

theorem controlOperands_tooWide {d r m f : Nat} (h : 2 ≤ d ∨ 2 ≤ r ∨ 2 ≤ m ∨ 32 ≤ f) :
    controlOperands d r m f = .error .fieldTooWide := by
  refine fieldOperand_bind_tooWide fun hd _ => fieldOperand_bind_tooWide fun hr _ => fieldOperand_bind_tooWide fun hm _ =>
    fieldOperand_bind_tooWide fun hf _ => ?_
  omega

section
variable {t : List Char} (h : unhex t = none)
include h

theorem sequenceOperand_malformed : sequenceOperand (.hex t) = .error .malformedHex := by
  simp only [sequenceOperand, h]

theorem addrOperand_malformed : addrOperand (.hex t) = .error .malformedHex := by
  rw [addrOperand, sequenceOperand_malformed h]
  rfl

theorem dataOperand_malformed : dataOperand (.hex t) = .error .malformedHex := by
  rw [dataOperand, sequenceOperand_malformed h]
  rfl

end

end Sys2Proof
end

section
/-! The checksum (40_field_codecs R77, R78, R89): `sum8` is the sum in the ring of bytes, so its laws are those of a sum. -/

namespace Sys2Proof

theorem sum8_eq_sum (s : List Byte) : sum8 s = s.sum := by
  induction s with
  | nil => rfl
  | cons b s ih => rw [sum8_cons, ih, List.sum_cons]

/-- Summing without bound and reducing once gives the same byte (R77). -/
theorem sum8_toNat (s : List Byte) : (sum8 s).toNat = (s.map (·.toNat)).sum % 256 := by
  induction s with
  | nil => rfl
  | cons b s ih => rw [sum8_cons, BitVec.toNat_add, ih, List.map_cons, List.sum_cons, Nat.add_mod_mod]

theorem sum8_append (x y : List Byte) : sum8 (x ++ y) = sum8 x + sum8 y := by
  rw [sum8_eq_sum, sum8_eq_sum, sum8_eq_sum, List.sum_append]

theorem sum8_set {x : List Byte} {i : Nat} {a : Byte} (h : x[i]? = some a) (b : Byte) :
    sum8 (x.set i b) = sum8 x + (b - a) := by
  obtain ⟨hi, rfl⟩ := List.getElem?_eq_some_iff.1 h
  rw [sum8_eq_sum, sum8_eq_sum, List.sum_set', dif_pos hi, neg_add_eq_sub]

theorem sum8_perm {x y : List Byte} (h : x.Perm y) : sum8 x = sum8 y := by
  rw [sum8_eq_sum, sum8_eq_sum, h.sum_eq]

/-- Settles O19: a changed byte moves the sum by its change, which is 0 only for an equal byte. -/
theorem checksumArithmetic : Obligations.ChecksumArithmetic := by
  refine ⟨sum8_append, fun x i a d h => ?_, fun x i a b h hne heq => ?_, fun _ _ => sum8_perm⟩
  · rw [sum8_set h, add_sub_cancel_left]
  · rw [sum8_set h, add_eq_left, sub_eq_zero] at heq
    exact hne heq.symm

/-- The checksum of a buffer covers all but its last two bytes (R78). -/
theorem bufferSum_toNat (buf : List Byte) :
    (bufferSum buf).toNat = ((buf.take (buf.length - 2)).map (·.toNat)).sum % 256 := by
  rw [bufferSum, slice_zero, sum8_toNat]

theorem checksumHolds_of_getElem? {buf : List Byte} {b : Byte} (h : buf[buf.length - 2]? = some b) :
    checksumHolds buf = decide (bufferSum buf = b) := by
  rw [checksumHolds, h, Option.some_beq_some, beq_eq_decide, decide_eq_decide]
  exact eq_comm

/-- The structure predicate, marker by marker (R79). -/
theorem structureHolds_iff (buf : List Byte) : structureHolds buf = true ↔
    8 ≤ buf.length ∧ buf.head? = some 0x68 ∧ buf[7]? = some 0x68 ∧ buf.getLast? = some 0x16 := by
  simp only [structureHolds, SOF, END, Bool.and_eq_true, decide_eq_true_eq, beq_iff_eq, and_assoc,
    List.head?_eq_getElem?, List.getLast?_eq_getElem?]

/-- Eight bytes cannot hold: the last one would be both the second `SOF` and `END`. -/
theorem nine_le_of_structureHolds {buf : List Byte} (h : structureHolds buf = true) : 9 ≤ buf.length := by
  obtain ⟨hlen, _, h7, hlast⟩ := (structureHolds_iff buf).1 h
  by_contra hlt
  have h8 : buf.length = 8 := by omega
  rw [List.getLast?_eq_getElem?, h8, h7] at hlast
  cases hlast

end Sys2Proof

namespace Sys2Proof.Machine

/-- Settles O9, by `sum8_toNat`. -/
theorem csumSumsModulo256 : Obligations.CsumSumsModulo256 := fun x _ =>
  ⟨decodeOfEncodeIsTheOperation (.csum x) rfl, sum8 x, sum8_toNat x, rfl⟩

/-- Settles O10: with two bytes the last but one exists, and the predicate compares the sum with it. -/
theorem csumchkComparesSumWithTrailer : Obligations.CsumchkComparesSumWithTrailer := by
  refine fun buf s => ⟨fun hlen => ?_, fun hlen => ?_⟩
  · have hb : buf[buf.length - 2]? = some buf[buf.length - 2] := List.getElem?_eq_getElem (by omega)
    refine ⟨decodeOfEncodeIsTheOperation (.csumchk buf) (decide_eq_true hlen), bufferSum buf, _, bufferSum_toNat buf, hb, ?_⟩
    rw [← checksumHolds_of_getElem? hb]
    exact if_pos hlen
  · have hshort : ¬2 ≤ buf.length := by omega
    exact ⟨decode_of_assemble (m := .csumchk) (by decide) (if_neg hshort), if_neg hshort⟩

/-- Settles O11, by the two facts of the structure predicate. -/
theorem structchkTestsTheThreeMarkers : Obligations.StructchkTestsTheThreeMarkers := fun buf _ =>
  ⟨decodeOfEncodeIsTheOperation (.structchk buf) rfl, structureHolds buf, structureHolds_iff buf, nine_le_of_structureHolds,
    rfl⟩

end Sys2Proof.Machine
end

section
/-! The address, control and data codecs and their inverses (40_field_codecs R80-R86). -/

namespace Sys2Proof

theorem ctrlEnc_toNat (q : Control) :
    (ctrlEnc q).toNat = q.dir.toNat * 128 + q.resp.toNat * 64 + q.more.toNat * 32 + q.func.toNat := by
  have hd := q.dir.toNat_lt
  have hr := q.resp.toNat_lt
  have hm := q.more.toNat_lt
  have hf := q.func.isLt
  rw [ctrlEnc, BitVec.toNat_ofNat, Nat.mod_eq_of_lt (by omega)]

theorem toNat_getLsbD {w : Nat} (c : BitVec w) (i : Nat) : (c.getLsbD i).toNat = c.toNat / 2 ^ i % 2 := Nat.toNat_testBit _ _

/-- CTRLDEC field by field: bits 7, 6, 5 and 4..0 (R84). -/
theorem ctrlDec_toNat (c : Byte) :
    (ctrlDec c).dir.toNat = c.toNat / 128 % 2 ∧ (ctrlDec c).resp.toNat = c.toNat / 64 % 2 ∧
    (ctrlDec c).more.toNat = c.toNat / 32 % 2 ∧ (ctrlDec c).func.toNat = c.toNat % 32 :=
  ⟨toNat_getLsbD c 7, toNat_getLsbD c 6, toNat_getLsbD c 5, BitVec.extractLsb'_toNat 0 5 c⟩

theorem ctrlEnc_ctrlDec (c : Byte) : ctrlEnc (ctrlDec c) = c := by
  obtain ⟨hd, hr, hm, hf⟩ := ctrlDec_toNat c
  have hc := c.isLt
  apply BitVec.eq_of_toNat_eq
  rw [ctrlEnc_toNat]
  omega

theorem bool_toNat_injective : Function.Injective Bool.toNat := by decide

theorem Control.eq_of_toNat {p q : Control} (hd : p.dir.toNat = q.dir.toNat) (hr : p.resp.toNat = q.resp.toNat)
    (hm : p.more.toNat = q.more.toNat) (hf : p.func.toNat = q.func.toNat) : p = q := by
  obtain ⟨pd, pr, pm, pf⟩ := p
  obtain ⟨qd, qr, qm, qf⟩ := q
  obtain rfl : pd = qd := bool_toNat_injective hd
  obtain rfl : pr = qr := bool_toNat_injective hr
  obtain rfl : pm = qm := bool_toNat_injective hm
  obtain rfl : pf = qf := BitVec.eq_of_toNat_eq hf
  rfl

theorem ctrlDec_ctrlEnc (q : Control) : ctrlDec (ctrlEnc q) = q := by
  obtain ⟨hd, hr, hm, hf⟩ := ctrlDec_toNat (ctrlEnc q)
  rw [ctrlEnc_toNat] at hd hr hm hf
  have hd' := q.dir.toNat_lt
  have hr' := q.resp.toNat_lt
  have hm' := q.more.toNat_lt
  have hf' := q.func.isLt
  apply Control.eq_of_toNat <;> omega

/-- DATAENC byte by byte (R85). -/
theorem dataEnc_getElem? {d : List Byte} {i : Nat} (hi : i < d.length) :
    (dataEnc (some d))[i]? = some (d[d.length - 1 - i] + BIAS) := by
  simp [dataEnc, hi]

/-- DATADEC byte by byte (R86). -/
theorem dataDec_getElem? {w : List Byte} {i : Nat} (hi : i < w.length) :
    (dataDec w)[i]? = some (w[w.length - 1 - i] - BIAS) := by
  simp [dataDec, hi]

theorem toNat_add_BIAS (x : Byte) : (x + BIAS).toNat = (x.toNat + 0x33) % 256 := BitVec.toNat_add x BIAS

theorem toNat_sub_BIAS (x : Byte) : (x - BIAS).toNat = (x.toNat + (256 - 0x33)) % 256 := by
  rw [Nat.add_comm]
  exact BitVec.toNat_sub x BIAS

theorem dataDec_dataEnc (d : List Byte) : dataDec (dataEnc (some d)) = d := by
  rw [dataEnc, dataDec, List.reverse_reverse, List.map_map]
  exact List.map_id'' (fun b => add_sub_cancel_right b BIAS) d

theorem dataEnc_dataDec (w : List Byte) : dataEnc (some (dataDec w)) = w := by
  rw [dataEnc, dataDec, List.map_map, ← List.map_reverse, List.reverse_reverse]
  exact List.map_id'' (fun b => sub_add_cancel b BIAS) w

end Sys2Proof

namespace Sys2Proof.Machine

/-- Settles O12: the decoder reads six bytes as an address and refuses any other number of them. -/
theorem addrencReversesOrBroadcasts : Obligations.AddrencReversesOrBroadcasts := fun _ =>
  ⟨fun a => ⟨decodeOfEncodeIsTheOperation (.addrenc (some a)) rfl, rfl⟩,
    decodeOfEncodeIsTheOperation (.addrenc none) rfl, rfl,
    fun _ hx => decode_of_assemble (m := .addrenc) (by decide) (congrArg (Except.map _) (addrOperand_of_length_ne hx))⟩

/-- Settles O14: the packed fields fit a byte, and the first field that is too wide stops the decoder. -/
theorem ctrlencPacksTheFields : Obligations.CtrlencPacksTheFields :=
  ⟨fun d r m f _ =>
      ⟨decodeOfEncodeIsTheOperation (.ctrlenc d r m f) rfl, ctrlEnc ⟨d, r, m, f⟩, ctrlEnc_toNat ⟨d, r, m, f⟩, rfl⟩,
    fun _ _ _ _ h => decode_of_assemble (m := .ctrlenc) (by decide) (congrArg (Except.map _) (controlOperands_tooWide h))⟩

/-- Settles O15, by the fields of CTRLDEC and its two inverse laws. -/
theorem ctrldecUnpacksAndUndoesCtrlenc : Obligations.CtrldecUnpacksAndUndoesCtrlenc := by
  refine ⟨fun c s => ?_, ctrlEnc_ctrlDec, ctrlDec_ctrlEnc⟩
  obtain ⟨hd, hr, hm, hf⟩ := ctrlDec_toNat c
  exact ⟨decodeOfEncodeIsTheOperation (.ctrldec c) rfl, ctrlDec c, hd, hr, hm, hf, rfl⟩

/-- Settles O16, by DATAENC byte by byte; the decoder and the operation make the same check of the length. -/
theorem dataencBiasesAndReverses : Obligations.DataencBiasesAndReverses := by
  refine fun s => ⟨fun d hd => ⟨decodeOfEncodeIsTheOperation (.dataenc (some d)) (decide_eq_true hd), dataEnc (some d),
    dataEnc_length d, fun i hi => ?_, if_pos hd⟩, decodeOfEncodeIsTheOperation (.dataenc none) rfl, rfl, fun d hd => ?_⟩
  · exact ⟨_, _, List.getElem?_eq_getElem (by omega), dataEnc_getElem? hi, toNat_add_BIAS _⟩
  · exact ⟨decode_of_assemble (m := .dataenc) (by decide) (congrArg (Except.map _) (dataOperand_of_length_gt hd)),
      if_neg (Nat.not_le.2 hd)⟩

/-- Settles O17, by DATADEC byte by byte and its two inverse laws. -/
theorem datadecUnbiasesAndUndoesDataenc : Obligations.DatadecUnbiasesAndUndoesDataenc :=
  ⟨fun w _ => ⟨decodeOfEncodeIsTheOperation (.datadec w) rfl, dataDec w, dataDec_length w,
    fun _ hi => ⟨_, _, List.getElem?_eq_getElem (by omega), dataDec_getElem? hi, toNat_sub_BIAS _⟩, rfl⟩,
    dataDec_dataEnc, dataEnc_dataDec⟩

end Sys2Proof.Machine
end

section
/-! Hexadecimal strings as input: which characters are digits, which strings stand for bytes, and for which bytes
(40_field_codecs R75, R76, R81). -/

namespace Sys2Proof

theorem hexDigit_mem (v : BitVec 4) : hexDigit v ∈ "0123456789abcdef".toList := by
  revert v
  decide

theorem mem_of_mem_hex {s : List Byte} {c : Char} (h : c ∈ hex s) : c ∈ "0123456789abcdef".toList := by
  induction s with
  | nil => cases h
  | cons b s ih =>
    rcases List.mem_cons.1 h with rfl | h
    · exact hexDigit_mem _
    · rcases List.mem_cons.1 h with rfl | h
      · exact hexDigit_mem _
      · exact ih h

theorem lt_of_hexValue_isSome {c : Char} (h : (hexValue c).isSome = true) : c.toNat < 103 := by
  by_contra hlt
  have hnone : hexValue c = none := by
    simp only [hexValue, Bool.and_eq_true, decide_eq_true_eq]
    rw [if_neg (by omega), if_neg (by omega), if_neg (by omega)]
  rw [hnone] at h
  cases h

/-- The characters with a value are the 22 digits of R76: past 'f' there is none, and up to it the codes are looked through. -/
theorem hexValue_isSome_iff (c : Char) : (hexValue c).isSome = true ↔ c ∈ "0123456789abcdefABCDEF".toList := by
  have hcodes : ∀ n < 103, (hexValue (Char.ofNat n)).isSome = true → Char.ofNat n ∈ "0123456789abcdefABCDEF".toList := by
    decide
  have hdigits : "0123456789abcdefABCDEF".toList.all (fun c => (hexValue c).isSome) = true := by decide
  refine ⟨fun h => ?_, List.all_eq_true.1 hdigits c⟩
  have hc := hcodes c.toNat (lt_of_hexValue_isSome h)
  rw [Char.ofNat_toNat] at hc
  exact hc h

/-- The digit written for the value of a digit is that digit in lowercase. -/
theorem hexDigit_of_hexValue {c : Char} {x : BitVec 4} (h : hexValue c = some x) : hexDigit x = lowerDigit c := by
  have hdigits : "0123456789abcdefABCDEF".toList.all (fun c => (hexValue c).map hexDigit == some (lowerDigit c)) = true := by
    decide
  have hc := List.all_eq_true.1 hdigits c ((hexValue_isSome_iff c).1 (Option.isSome_of_eq_some h))
  rw [h, beq_iff_eq] at hc
  exact Option.some.inj hc

/-- A string of two or more characters stands for bytes when its first two are digits and the rest stands for bytes. -/
theorem unhex_cons_cons {h l : Char} {t : List Char} {s : List Byte} :
    unhex (h :: l :: t) = some s ↔
      ∃ x y r, hexValue h = some x ∧ hexValue l = some y ∧ unhex t = some r ∧ s = (x ++ y : BitVec 8) :: r := by
  rw [unhex]
  split
  case h_1 x y r hx hy hr => simp [hx, hy, hr, eq_comm]
  case h_2 hnone =>
    constructor
    · nofun
    · rintro ⟨x, y, r, hx, hy, hr, _⟩
      exact (hnone x y r hx hy hr).elim

theorem nibbles_append (x y : BitVec 4) :
    (x ++ y : BitVec 8).extractLsb' 4 4 = x ∧ (x ++ y : BitVec 8).extractLsb' 0 4 = y := by
  revert x y
  decide

/-- `Hex(Unhex(t)) = lowercase(t)` (R76). -/
theorem hex_of_unhex : ∀ {t : List Char} {s : List Byte}, unhex t = some s → hex s = t.map lowerDigit
  | [], _, h => by cases h; rfl
  | [_], _, h => by cases h
  | _ :: _ :: t, _, h => by
    obtain ⟨x, y, r, hx, hy, hr, rfl⟩ := unhex_cons_cons.1 h
    obtain ⟨hhigh, hlow⟩ := nibbles_append x y
    rw [hex, hhigh, hlow, hexDigit_of_hexValue hx, hexDigit_of_hexValue hy, hex_of_unhex hr]
    rfl

/-- Byte i of a string is read from its digits 2i and 2i + 1, the high digit first (R75, R76). -/
theorem unhex_getElem? : ∀ {t : List Char} {s : List Byte}, unhex t = some s → ∀ i, i < s.length →
    ∃ (h l : Char) (x y : BitVec 4), t[2 * i]? = some h ∧ t[2 * i + 1]? = some l ∧ hexValue h = some x ∧
      hexValue l = some y ∧ s[i]? = some (x ++ y)
  | [], _, h, _, hi => by cases h; cases hi
  | [_], _, h, _, _ => by cases h
  | _ :: _ :: t, _, h, i, hi => by
    obtain ⟨x, y, r, hx, hy, hr, rfl⟩ := unhex_cons_cons.1 h
    cases i with
    | zero => exact ⟨_, _, x, y, rfl, rfl, hx, hy, rfl⟩
    | succ i => exact unhex_getElem? hr i (Nat.lt_of_succ_lt_succ hi)

theorem toNat_append_nibbles (x y : BitVec 4) : (x ++ y : BitVec 8).toNat = 16 * x.toNat + y.toNat := by
  revert x y
  decide

/-- The strings that stand for bytes: of even length, and of digits alone (R76). -/
theorem unhex_isSome_iff : ∀ t : List Char,
    (unhex t).isSome = true ↔ t.length % 2 = 0 ∧ ∀ c ∈ t, c ∈ "0123456789abcdefABCDEF".toList
  | [] => by simp [unhex]
  | [_] => by simp [unhex]
  | h :: l :: t => by
    have hlen : (h :: l :: t).length % 2 = t.length % 2 := Nat.add_mod_right _ 2
    rw [hlen, List.forall_mem_cons, List.forall_mem_cons, ← hexValue_isSome_iff, ← hexValue_isSome_iff,
      and_left_comm, and_left_comm (a := t.length % 2 = 0), ← unhex_isSome_iff t]
    simp only [Option.isSome_iff_exists, unhex_cons_cons]
    constructor
    · rintro ⟨_, x, y, r, hx, hy, hr, _⟩
      exact ⟨⟨x, hx⟩, ⟨y, hy⟩, ⟨r, hr⟩⟩
    · rintro ⟨⟨x, hx⟩, ⟨y, hy⟩, ⟨r, hr⟩⟩
      exact ⟨_, x, y, r, hx, hy, hr, rfl⟩

theorem unhex_eq_none_iff (t : List Char) :
    unhex t = none ↔ t.length % 2 = 1 ∨ ∃ c ∈ t, c ∉ "0123456789abcdefABCDEF".toList := by
  rw [← Option.not_isSome_iff_eq_none, unhex_isSome_iff, not_and_or, Nat.mod_two_not_eq_zero]
  simp only [not_forall, exists_prop]

/-- Settles O18: `Hex` and `Unhex` undo each other, and a string without bytes stops the reader of an address or of data. -/
theorem hexStringsRoundTrip : Obligations.HexStringsRoundTrip := by
  refine ⟨unhex_hex, fun _ _ => hex_of_unhex, fun t s h i hi => ?_, unhex_eq_none_iff, fun t f h => ?_⟩
  · obtain ⟨c, l, x, y, hc, hl, hx, hy, hs⟩ := unhex_getElem? h i hi
    exact ⟨c, l, x, y, x ++ y, hc, hl, hx, hy, hs, toNat_append_nibbles x y⟩
  · have haddr := addrOperand_malformed h
    have hdata := dataOperand_malformed h
    exact ⟨decode_of_assemble (m := .addrenc) (by decide) (congrArg (Except.map _) haddr),
      decode_of_assemble (m := .addrdec) (by decide) (congrArg (Except.map _) haddr),
      decode_of_assemble (m := .dataenc) (by decide) (congrArg (Except.map _) hdata),
      decode_of_assemble (m := .setaddr) (by decide) (congrArg (Except.map _) haddr),
      decode_of_assemble (m := .setdata) (by decide) (congrArg (Except.map _) hdata)⟩

/-- Settles O13: the reversal is its own inverse, and its string is one of `Hex`. -/
theorem addrdecReversesAndUndoesAddrenc : Obligations.AddrdecReversesAndUndoesAddrenc := fun w =>
  ⟨decodeOfEncodeIsTheOperation (.addrdec w) rfl, fun _ => rfl, hex_length _, fun _ => mem_of_mem_hex, unhex_hex _,
    w.rev_rev, w.rev_rev⟩

end Sys2Proof
end

section
/-! What every codec operation is: a function of its operands alone (40_field_codecs R92; 10_state R33). -/

namespace Sys2Proof.Machine

/-- A codec is refused in every state, or in every state hands over the same value; CSUM and CSUMCHK, and no other, also leave
a byte in `ACC`. -/
theorem exec_codec {i : Instr} (hi : i.isCodec = true) :
    (∃ r, ∀ s, exec i s = .refused r) ∨
    (∃ v, ∀ s, exec i s = .next (s.answer v)) ∨
    (((∃ x, i = .csum x) ∨ ∃ x, i = .csumchk x) ∧ ∃ a v, ∀ s, exec i s = .next ((s.setAcc a).answer v)) := by
  cases i with
  | csum x => exact .inr (.inr ⟨.inl ⟨x, rfl⟩, _, _, fun _ => rfl⟩)
  | csumchk x =>
    by_cases hx : 2 ≤ x.length
    · exact .inr (.inr ⟨.inr ⟨x, rfl⟩, _, _, fun _ => if_pos hx⟩)
    · exact .inl ⟨_, fun _ => if_neg hx⟩
  | dataenc d =>
    by_cases hd : (d.getD []).length ≤ N_MAX
    · exact .inr (.inl ⟨_, fun _ => if_pos hd⟩)
    · exact .inl ⟨_, fun _ => if_neg hd⟩
  | addrenc | addrdec | ctrlenc | ctrldec | datadec | structchk => exact .inr (.inl ⟨_, fun _ => rfl⟩)
  | fnew | setaddr | clraddr | setctrl | setdata | clrdata | setpver | load | dump | read | write | reset => cases hi

/-- Settles O20, from the three shapes of a codec, of which the refusal answers no next state. -/
theorem codecsChangeOnlyTheAccumulator : Obligations.CodecsChangeOnlyTheAccumulator := by
  intro i s t hi h
  rcases exec_codec hi with ⟨r, he⟩ | ⟨v, he⟩ | ⟨hsum, a, v, he⟩ <;> cases (he s).symm.trans h
  · exact ⟨rfl, ⟨v, rfl⟩, fun _ _ => rfl⟩
  · refine ⟨rfl, ⟨v, rfl⟩, fun hcsum hcsumchk => ?_⟩
    rcases hsum with ⟨x, rfl⟩ | ⟨x, rfl⟩
    · exact absurd rfl (hcsum x)
    · exact absurd rfl (hcsumchk x)

/-- Settles O21, from the three shapes of a codec. -/
theorem codecsAreStateless : Obligations.CodecsAreStateless := by
  intro i s₁ s₂ t₁ hi h
  rcases exec_codec hi with ⟨r, he⟩ | ⟨v, he⟩ | ⟨_, a, v, he⟩ <;> cases (he s₁).symm.trans h
  · exact ⟨_, .ok v, he s₂, rfl, rfl⟩
  · exact ⟨_, .ok v, he s₂, rfl, rfl⟩

end Sys2Proof.Machine
end

section
/-! The function-code tables (30_encoding R64; 40_field_codecs R88): both lookups say that the table has the entry. -/

namespace Sys2Proof

/-- In a list whose keys are distinct, a lookup by key finds the one entry with that key. -/
theorem find?_key_eq_some_iff {α β : Type} [BEq β] [LawfulBEq β] {key : α → β} {l : List α} (hl : (l.map key).Nodup) {k : β}
    {e : α} : l.find? (fun e => key e == k) = some e ↔ e ∈ l ∧ key e = k := by
  have found : ∀ {e'}, l.find? (fun e => key e == k) = some e' → e' ∈ l ∧ key e' = k := fun h =>
    ⟨List.mem_of_find?_eq_some h, eq_of_beq (List.find?_some (p := fun e => key e == k) h)⟩
  refine ⟨found, fun ⟨he, hk⟩ => ?_⟩
  have hsome : (l.find? (fun e => key e == k)).isSome = true := List.find?_isSome.2 ⟨e, he, beq_iff_eq.2 hk⟩
  obtain ⟨e', hfind⟩ := Option.isSome_iff_exists.1 hsome
  obtain ⟨he', hk'⟩ := found hfind
  rw [hfind, List.inj_on_of_nodup_map hl he' he (hk'.trans hk.symm)]

theorem functionNames_nodup (v : Version) : (functionNames v).Nodup := by cases v <;> decide

/-- What a legal table fixes of one version: exactly its names, and distinct codes (R64). -/
theorem FuncTable.entries_of_legal {t : FuncTable} (h : t.legal = true) (v : Version) :
    (t.entries v).map (·.1) = functionNames v ∧ ((t.entries v).map (·.2)).Nodup := by
  simp only [FuncTable.legal, Bool.and_eq_true, beq_iff_eq, decide_eq_true_eq] at h
  obtain ⟨⟨⟨⟨hna, hnb⟩, hca⟩, hcb⟩, _⟩ := h
  cases v
  case a => exact ⟨hna, hca⟩
  case b => exact ⟨hnb, hcb⟩

theorem funcCode_eq_some_iff {t : FuncTable} (h : t.legal = true) {v : Version} {n : FuncName} {c : BitVec 5} :
    funcCode t v n = some c ↔ (n, c) ∈ t.entries v := by
  have hnames : ((t.entries v).map (·.1)).Nodup := by
    rw [(t.entries_of_legal h v).1]
    exact functionNames_nodup v
  simp [funcCode, find?_key_eq_some_iff hnames]

theorem funcName_eq_some_iff {t : FuncTable} (h : t.legal = true) {v : Version} {n : FuncName} {c : BitVec 5} :
    funcName t v c = some n ↔ (n, c) ∈ t.entries v := by
  simp [funcName, find?_key_eq_some_iff (t.entries_of_legal h v).2]

theorem funcCode_isSome_iff {t : FuncTable} (h : t.legal = true) (v : Version) (n : FuncName) :
    (funcCode t v n).isSome = true ↔ n ∈ functionNames v := by
  rw [← (t.entries_of_legal h v).1, List.mem_map, Option.isSome_iff_exists]
  simp [funcCode_eq_some_iff h]

theorem Config.funcCode_funcTable_readAddress : Sys2Proof.funcCode Config.funcTable .a .readAddress = some 0x13 :=
  congrArg some Config.funcCode_readAddress

theorem Config.funcTable_codes_nodup (v : Version) : ((Config.funcTable.entries v).map (·.2)).Nodup := by
  have hcodes : (Config.funcTable.entries v).map (·.2) = (functionNames v).map (Config.funcCode v) := by cases v <;> rfl
  rw [hcodes]
  exact (functionNames_nodup v).map (Config.funcCode_injective v)

theorem Config.funcTable_legal : Config.funcTable.legal = true := by
  simp only [FuncTable.legal, Bool.and_eq_true, beq_iff_eq, decide_eq_true_eq]
  exact ⟨⟨⟨⟨rfl, rfl⟩, Config.funcTable_codes_nodup .a⟩, Config.funcTable_codes_nodup .b⟩,
    Config.funcCode_funcTable_readAddress⟩

/-- Settles O60: on a legal table each lookup answers exactly by the entry, and the machine's own table is legal. -/
theorem functionTableLookupsAreInverse : Obligations.FunctionTableLookupsAreInverse := by
  have hinverse : ∀ (t : FuncTable) (v : Version) (n : FuncName) (c : BitVec 5), t.legal = true →
      (funcCode t v n = some c ↔ funcName t v c = some n) :=
    fun t v n c h => (funcCode_eq_some_iff h).trans (funcName_eq_some_iff h).symm
  exact ⟨hinverse, fun t v n h => funcCode_isSome_iff h v n, Config.funcTable_legal, Config.funcCode_funcTable_readAddress,
    (hinverse _ _ _ _ Config.funcTable_legal).1 Config.funcCode_funcTable_readAddress⟩

end Sys2Proof
end

section
/-! The wire layout of a frame (30_encoding R53): ten bytes of markers, address, control and length, and what follows them; and the
two-byte trailer, checksum and end marker (R54). -/

namespace Sys2Proof.Machine

/-- The opening of a frame buffer, `SOF`, six address bytes, `SOF`, control and length byte, followed by x (30_encoding R53). -/
def frameBuf (w : Addr) (c n : Byte) (x : List Byte) : List Byte := SOF :: (w.bytes ++ SOF :: c :: n :: x)

@[simp] theorem frameBuf_length (w : Addr) (c n : Byte) (x : List Byte) : (frameBuf w c n x).length = 10 + x.length :=
  Nat.add_comm x.length 10

/-- The ten bytes of the layout, one by one (30_encoding R53). -/
theorem frameBuf_head (w : Addr) (c n : Byte) (x : List Byte) :
    (frameBuf w c n x)[0]? = some SOF ∧ ((frameBuf w c n x).drop 1).take 6 = w.bytes ∧ (frameBuf w c n x)[7]? = some SOF ∧
    (frameBuf w c n x)[8]? = some c ∧ (frameBuf w c n x)[9]? = some n := ⟨rfl, rfl, rfl, rfl, rfl⟩

theorem frameBuf_append (w : Addr) (c n : Byte) (x y : List Byte) : frameBuf w c n x ++ y = frameBuf w c n (x ++ y) := rfl

theorem frameBuf_getElem?_ten_add (w : Addr) (c n : Byte) (x : List Byte) (i : Nat) : (frameBuf w c n x)[10 + i]? = x[i]? := by
  rw [Nat.add_comm]
  rfl

theorem frameBuf_take_ten_add (w : Addr) (c n : Byte) (x : List Byte) (i : Nat) :
    (frameBuf w c n x).take (10 + i) = frameBuf w c n (x.take i) := by
  rw [Nat.add_comm]
  rfl

theorem frameBuf_slice_ten (w : Addr) (c n : Byte) (x : List Byte) (i : Nat) :
    slice (frameBuf w c n x) 10 (10 + i) = x.take i := by
  rw [slice, Nat.add_sub_cancel_left]
  rfl

/-- A buffer of ten bytes whose two opening markers stand has the layout. -/
theorem eq_frameBuf {buf : List Byte} (hlen : 10 ≤ buf.length) (hsof : buf[0]? = some SOF) (hsof' : buf[7]? = some SOF) :
    ∃ w c n x, buf = frameBuf w c n x := by
  match buf, hlen with
  | _ :: b1 :: b2 :: b3 :: b4 :: b5 :: b6 :: _ :: c :: n :: x, _ =>
    cases hsof
    cases hsof'
    exact ⟨⟨b1, b2, b3, b4, b5, b6⟩, c, n, x, rfl⟩

/-- LOAD's fields in a buffer whose data are all there (41_frame R100 steps 3 to 5). -/
theorem loadFields_frameBuf {w : Addr} {c n : Byte} {x : List Byte} (hn : n.toNat ≤ x.length) :
    loadFields (frameBuf w c n x) = some ⟨addrDec w, ctrlDec c, dataDec (x.take n.toNat)⟩ := by
  have hguard : 10 + n.toNat ≤ (frameBuf w c n x).length := by rw [frameBuf_length]; omega
  rw [← frameBuf_slice_ten w c n x]
  exact if_pos hguard

theorem bufferSum_append_trailer (b : List Byte) (k e : Byte) : bufferSum (b ++ [k, e]) = sum8 b := by
  simp [bufferSum]

theorem checksumHolds_append_trailer (b : List Byte) (e : Byte) : checksumHolds (b ++ [sum8 b, e]) = true := by
  rw [checksumHolds_of_getElem? (b := sum8 b) (by simp), bufferSum_append_trailer, decide_eq_true rfl]

/-- A buffer that passes both checks ends in its checksum and the end marker. -/
theorem eq_append_trailer {buf : List Byte} (hs : structureHolds buf = true) (hc : checksumHolds buf = true) :
    buf = buf.take (buf.length - 2) ++ [bufferSum buf, END] := by
  obtain ⟨hlen, _, _, hend⟩ := (structureHolds_iff buf).1 hs
  have hsum : buf[buf.length - 2]? = some (bufferSum buf) := eq_of_beq hc
  obtain ⟨hi, hsum⟩ := List.getElem?_eq_some_iff.1 hsum
  rw [List.getLast?_eq_getElem?, List.getElem?_eq_some_iff] at hend
  obtain ⟨hj, hend⟩ := hend
  have hdrop : buf.drop (buf.length - 2) = [bufferSum buf, END] := by
    have hnext : buf.length - 2 + 1 = buf.length - 1 := by omega
    have hlast : buf.length - 1 + 1 = buf.length := by omega
    simp only [List.drop_eq_getElem_cons hi, hsum, hnext, List.drop_eq_getElem_cons hj, hend, hlast, List.drop_length, END]
  rw [← hdrop, List.take_append_drop]

end Sys2Proof.Machine
end

section
/-! What DUMP writes: it sees a frame only through its wire forms, and its bytes pass both checks (41_frame R103). -/

namespace Sys2Proof

theorem addrDec_addrEnc (a : Option Addr) : addrDec (addrEnc a) = a.getD Addr.broadcast := by cases a <;> rfl

/-- An absent address is sent as the broadcast address, which is the same both ways (40_field_codecs R80). -/
theorem addrEnc_getD (a : Option Addr) : addrEnc (some (a.getD Addr.broadcast)) = addrEnc a := by cases a <;> rfl

theorem dataEnc_getD (d : Option (List Byte)) : dataEnc (some (d.getD [])) = dataEnc d := by cases d <;> rfl

theorem dataDec_dataEnc_getD (d : Option (List Byte)) : dataDec (dataEnc d) = d.getD [] := by
  rw [← dataEnc_getD, dataDec_dataEnc]

/-- The control of a byte, its function code as a number (40_field_codecs R84). -/
theorem ctrlDec_eq (c : Byte) :
    ctrlDec c = ⟨c.getLsbD 7, c.getLsbD 6, c.getLsbD 5, BitVec.ofNat 5 (c.toNat % 32)⟩ := by
  obtain ⟨_, _, _, hfunc⟩ := ctrlDec_toNat c
  exact Control.eq_of_toNat rfl rfl rfl (hfunc.trans (Nat.mod_mod c.toNat 32).symm)

end Sys2Proof

namespace Sys2Proof.Machine

theorem dataEnc_data_length (F : Frame) : (dataEnc F.data).length = F.dlen := by
  unfold Frame.dlen
  cases F.data with
  | none => rfl
  | some d => exact dataEnc_length d

theorem dumpBody_eq (F : Frame) :
    dumpBody F = frameBuf (addrEnc F.addr) (ctrlEnc F.ctrl) (BitVec.ofNat 8 F.dlen) (dataEnc F.data) := by
  rw [← dataEnc_data_length]
  rfl

theorem dumpFrame_eq_body (F : Frame) : dumpFrame F = dumpBody F ++ [sum8 (dumpBody F), END] := List.append_assoc _ _ _

theorem dumpFrame_eq (F : Frame) : dumpFrame F =
    frameBuf (addrEnc F.addr) (ctrlEnc F.ctrl) (BitVec.ofNat 8 F.dlen) (dataEnc F.data ++ [sum8 (dumpBody F), END]) := by
  rw [dumpFrame_eq_body, ← frameBuf_append, ← dumpBody_eq]

/-- The bytes of a dumped frame before its data (41_frame R103). -/
theorem dumpFrame_head (F : Frame) :
    (dumpFrame F)[0]? = some SOF ∧ ((dumpFrame F).drop 1).take 6 = (addrEnc F.addr).bytes ∧ (dumpFrame F)[7]? = some SOF ∧
    (dumpFrame F)[8]? = some (ctrlEnc F.ctrl) ∧ (dumpFrame F)[9]? = some (BitVec.ofNat 8 F.dlen) := by
  rw [dumpFrame_eq]
  exact frameBuf_head _ _ _ _

@[simp] theorem dumpBody_length (F : Frame) : (dumpBody F).length = 10 + F.dlen := by
  rw [dumpBody_eq, frameBuf_length, dataEnc_data_length]

@[simp] theorem dumpFrame_length (F : Frame) : (dumpFrame F).length = 12 + F.dlen := by
  rw [dumpFrame_eq_body, List.length_append, dumpBody_length]
  exact Nat.add_right_comm 10 F.dlen 2

/-- DUMP sees the wire forms of address and data and the control, and nothing else of a frame. -/
theorem dumpFrame_congr {F G : Frame} (ha : addrEnc F.addr = addrEnc G.addr) (hc : F.ctrl = G.ctrl)
    (hd : dataEnc F.data = dataEnc G.data) : dumpFrame F = dumpFrame G := by
  simp only [dumpFrame, dumpBody, ha, hc, hd]

/-- The last two bytes of a dumped frame are its checksum and the end marker. -/
theorem dumpFrame_trailer (F : Frame) :
    (dumpFrame F)[10 + F.dlen]? = some (sum8 (dumpBody F)) ∧ (dumpFrame F)[11 + F.dlen]? = some END := by
  have hsum : (dumpFrame F)[(dumpBody F).length]? = some (sum8 (dumpBody F)) := by simp [dumpFrame_eq_body]
  have hend : (dumpFrame F)[(dumpBody F).length + 1]? = some END := by simp [dumpFrame_eq_body]
  rw [dumpBody_length] at hsum hend
  exact ⟨hsum, Nat.add_right_comm 10 F.dlen 1 ▸ hend⟩

theorem structureHolds_dumpFrame (F : Frame) : structureHolds (dumpFrame F) = true := by
  obtain ⟨hsof, _, hsof', _⟩ := dumpFrame_head F
  refine (structureHolds_iff _).2 ⟨by rw [dumpFrame_length]; omega, List.head?_eq_getElem?.trans hsof, hsof', ?_⟩
  rw [dumpFrame, List.getLast?_concat, END]

theorem bufferSum_dumpFrame (F : Frame) : bufferSum (dumpFrame F) = sum8 (dumpBody F) := by
  rw [dumpFrame_eq_body, bufferSum_append_trailer]

theorem checksumHolds_dumpFrame (F : Frame) : checksumHolds (dumpFrame F) = true := by
  rw [dumpFrame_eq_body, checksumHolds_append_trailer]

/-- LOAD's fields of a dumped frame are its own, an absent address read as the broadcast one and absent data as empty
(41_frame R104). -/
theorem loadFields_dumpFrame {F : Frame} (hF : F.dlen ≤ 255) :
    loadFields (dumpFrame F) = some ⟨F.addr.getD Addr.broadcast, F.ctrl, F.data.getD []⟩ := by
  have hn : (BitVec.ofNat 8 F.dlen).toNat = (dataEnc F.data).length := by
    rw [dataEnc_data_length, BitVec.toNat_ofNat, Nat.mod_eq_of_lt (by omega)]
  rw [dumpFrame_eq, loadFields_frameBuf (by rw [hn, List.length_append]; omega), hn, List.take_left, addrDec_addrEnc,
    ctrlDec_ctrlEnc, dataDec_dataEnc_getD]

end Sys2Proof.Machine
end

section
/-! LOAD and DUMP as operations, and the round trips between a frame and its bytes (41_frame R100-R104). -/

namespace Sys2Proof.Machine

/-- An operation that leaves a byte in `ACC` and hands over a value, register by register. -/
theorem State.setAcc_answer (s : State) (a : Byte) (v : Value) :
    (s.setAcc a).answer v = { s with acc := a, results := s.results ++ [.ok v] } := rfl

theorem exec_dump {f : Nat} {s : State} {F : Frame} (hF : s.ctx[f]? = some F) (hd : F.dlen ≤ 255) :
    exec (.dump f) s = .next ((s.setAcc (sum8 (dumpBody F))).answer (.bytes (dumpFrame F))) :=
  withDump_of_get (k := fun s' out => .next (s'.answer (.bytes out))) hF (decide_eq_true hd)

/-- The frame LOAD makes of the fields of a buffer: they are all present, beside raw bytes and a version. -/
def Fields.frame (fl : Fields) (raw : Option (List Byte)) (v : Version) : Frame :=
  ⟨some fl.addr, fl.ctrl, some fl.data, raw, v⟩

theorem Fields.frame_dlen (fl : Fields) (raw : Option (List Byte)) (v : Version) : (fl.frame raw v).dlen = fl.data.length := rfl

/-- LOAD of a buffer past its checks ends Ok with every field assigned but the version. -/
theorem exec_load_ok {f : Nat} {buf : List Byte} {s : State} {F : Frame} {fl : Fields} (hF : s.ctx[f]? = some F)
    (hs : structureHolds buf = true) (hc : checksumHolds buf = true) (hl : loadFields buf = some fl) :
    exec (.load f buf) s = .next (((s.setFrame f (fl.frame (some buf) F.pver)).setAcc (bufferSum buf)).succeed) := by
  refine (withFrame_of_get hF).trans ?_
  rw [loadFrame_ok hs hc hl]
  rfl

/-- The code of Ok is no error's (60_exceptions R124). -/
theorem State.finish_statusErr_eq_zero {s : State} {o : Option OpError} (h : (s.finish o).statusErr = 0) : o = none := by
  cases o with
  | none => rfl
  | some e => cases e <;> cases h

/-- When LOAD ends with the code of Ok, the buffer passed its checks. -/
theorem checks_of_load_ok {f : Nat} {buf : List Byte} {s t : State} (h : exec (.load f buf) s = .next t)
    (h0 : t.statusErr = 0) : ∃ F fl, s.ctx[f]? = some F ∧ structureHolds buf = true ∧ checksumHolds buf = true ∧
      loadFields buf = some fl := by
  obtain ⟨F, hF, hk⟩ := withFrame_next h
  cases hk
  have herr := State.finish_statusErr_eq_zero h0
  rcases loadFrame_cases F s.acc buf with ⟨_, hl⟩ | ⟨_, _, hl⟩ | ⟨_, _, _, hl⟩ | ⟨hs, hc, fl, hfl, _⟩
  · cases (congrArg Loaded.error hl).symm.trans herr
  · cases (congrArg Loaded.error hl).symm.trans herr
  · cases (congrArg Loaded.error hl).symm.trans herr
  · exact ⟨F, fl, hF, hs, hc, hfl⟩

/-- The length byte of a buffer LOAD accepts counts the data, which the buffer has (41_frame R100 corner case (d)). -/
theorem loadFields_length {buf : List Byte} {fl : Fields} {n : Byte} (hl : loadFields buf = some fl) (hn : buf[9]? = some n) :
    fl.data.length = n.toNat ∧ 10 + n.toNat ≤ buf.length := by
  obtain ⟨_, _, n', _, _, hn', hle, _, _, _, hdata⟩ := loadFields_eq_some hl
  cases hn'.symm.trans hn
  exact ⟨hdata, hle⟩

/-- The frame LOAD makes of a buffer dumps the buffer's bytes through the data, with the trailer behind them. -/
theorem dumpBody_of_loadFields {buf : List Byte} {fl : Fields} {n : Byte} (hs : structureHolds buf = true)
    (hl : loadFields buf = some fl) (hn : buf[9]? = some n) (r : Option (List Byte)) (v : Version) :
    dumpBody (fl.frame r v) = buf.take (10 + n.toNat) := by
  obtain ⟨_, hsof, hsof', _⟩ := (structureHolds_iff buf).1 hs
  obtain ⟨_, hle⟩ := loadFields_length hl hn
  obtain ⟨w, c, n', x, rfl⟩ := eq_frameBuf (by omega) (List.head?_eq_getElem? ▸ hsof) hsof'
  cases hn
  have hx : n.toNat ≤ x.length := by rw [frameBuf_length] at hle; omega
  rw [loadFields_frameBuf hx] at hl
  cases hl
  have hlen : BitVec.ofNat 8 (x.take n.toNat).length = n := by
    rw [List.length_take_of_le hx, BitVec.ofNat_toNat, BitVec.setWidth_eq]
  rw [dumpBody_eq, frameBuf_take_ten_add, Fields.frame_dlen]
  simp only [Fields.frame, dataDec_length, hlen, ctrlEnc_ctrlDec, dataEnc_dataDec]
  rfl

theorem Frame.dlen_getD (F : Frame) : (F.data.getD []).length = F.dlen := by
  unfold Frame.dlen
  cases F.data <;> rfl

/-- A frame whose fields were replaced by what LOAD makes of its dump dumps the same bytes (41_frame R104). -/
theorem dumpFrame_of_own_fields (F : Frame) (r : Option (List Byte)) (v : Version) :
    dumpFrame (Fields.frame ⟨F.addr.getD Addr.broadcast, F.ctrl, F.data.getD []⟩ r v) = dumpFrame F :=
  dumpFrame_congr (addrEnc_getD F.addr) rfl (dataEnc_getD F.data)

/-- Settles O35: the dumped bytes pass LOAD's checks, its fields are the frame's own, and DUMP does not tell the two exceptions
apart. -/
theorem loadOfDumpReturnsTheFields : Obligations.LoadOfDumpReturnsTheFields := by
  intro f g s F G hF hlen hG
  obtain ⟨hg, _⟩ := List.getElem?_eq_some_iff.1 hG
  have hload := exec_load_ok (s := (s.setAcc (sum8 (dumpBody F))).answer (.bytes (dumpFrame F))) hG
    (structureHolds_dumpFrame F) (checksumHolds_dumpFrame F) (loadFields_dumpFrame hlen)
  refine ⟨dumpFrame F, _, _, _, exec_dump hF hlen, rfl, hload, rfl, rfl, rfl, exec_dump (List.getElem?_set_self hg) ?_, ?_⟩
  · exact (Frame.dlen_getD F).trans_le hlen
  · rw [State.answer_results, dumpFrame_of_own_fields]
    rfl

/-- Settles O29: the buffer has the layout, and each byte named is the one of the layout. -/
theorem loadDecodesAnAcceptedBuffer : Obligations.LoadDecodesAnAcceptedBuffer := by
  intro f buf s F a c n k hF hsof hsof' hend hk hsum h1 h2 h3 h4 h5 h6 h8 h9 hlen
  have hs : structureHolds buf = true :=
    (structureHolds_iff buf).2 ⟨by omega, List.head?_eq_getElem?.trans hsof, hsof', hend⟩
  have hbuf : bufferSum buf = k := BitVec.eq_of_toNat_eq ((bufferSum_toNat buf).trans hsum.symm)
  have hc : checksumHolds buf = true := (checksumHolds_of_getElem? hk).trans (decide_eq_true hbuf)
  obtain ⟨⟨w0, w1, w2, w3, w4, w5⟩, c', n', x, rfl⟩ := eq_frameBuf (by omega) hsof hsof'
  obtain ⟨rfl, rfl, rfl⟩ : w0 = a.b5 ∧ w1 = a.b4 ∧ w2 = a.b3 := ⟨Option.some.inj h1, Option.some.inj h2, Option.some.inj h3⟩
  obtain ⟨rfl, rfl, rfl⟩ : w3 = a.b2 ∧ w4 = a.b1 ∧ w5 = a.b0 := ⟨Option.some.inj h4, Option.some.inj h5, Option.some.inj h6⟩
  obtain ⟨hctrl, hn⟩ : c' = c ∧ n' = n := ⟨Option.some.inj h8, Option.some.inj h9⟩
  subst c' n'
  have hx : n.toNat ≤ x.length := by rw [frameBuf_length] at hlen; omega
  have hd : (x.take n.toNat).length = n.toNat := List.length_take_of_le hx
  refine ⟨dataDec (x.take n.toNat), (dataDec_length _).trans hd, fun i hi => ?_, ?_⟩
  · refine ⟨_, _, ?_, dataDec_getElem? (hi.trans_eq hd.symm), toNat_sub_BIAS _⟩
    have hidx : 10 + n.toNat - 1 - i = 10 + (n.toNat - 1 - i) := by omega
    rw [hidx, frameBuf_getElem?_ten_add, List.getElem_take, List.getElem?_eq_getElem (by omega)]
    simp only [hd]
  · rw [exec_load_ok hF hs hc (loadFields_frameBuf hx), hbuf, ctrlDec_eq]
    rfl

/-- Settles O33: every byte is one of the layout, and the trailer is the checksum of those before it and the end marker. -/
theorem dumpLaysOutTheFrame : Obligations.DumpLaysOutTheFrame := by
  intro f s F hF hlen
  obtain ⟨hsof, haddr, hsof', hctrl, hdlen⟩ := dumpFrame_head F
  obtain ⟨hsum, hend⟩ := dumpFrame_trailer F
  refine ⟨dumpFrame F, sum8 (dumpBody F), ctrlEnc F.ctrl, dumpFrame_length F, hsof, hsof', hend, fun a ha => ?_, fun ha => ?_,
    hctrl, ctrlEnc_toNat F.ctrl, hdlen, fun d hd i hi => ?_, hsum, ?_, structureHolds_dumpFrame F, checksumHolds_dumpFrame F,
    ?_⟩
  · rw [haddr, ha]
    rfl
  · rw [haddr, ha]
    rfl
  · have hlt : i < (dataEnc (some d)).length := hi.trans_eq (dataEnc_length d).symm
    refine ⟨_, _, List.getElem?_eq_getElem (by omega), ?_, toNat_add_BIAS _⟩
    rw [dumpFrame_eq, frameBuf_getElem?_ten_add, hd, List.getElem?_append_left hlt, dataEnc_getElem? hi]
  · have htake : (dumpFrame F).take (10 + F.dlen) = dumpBody F := by
      rw [dumpFrame_eq_body, ← dumpBody_length, List.take_left]
    rw [htake, sum8_toNat]
  · rw [exec_dump hF hlen, State.setAcc_answer]

/-- Settles O36: DUMP writes the buffer through its data, and in a buffer of 12 + N bytes only the trailer follows them. -/
theorem dumpOfLoadIsTheBufferWhenStrict : Obligations.DumpOfLoadIsTheBufferWhenStrict := by
  intro f buf s t n h h0 hn
  obtain ⟨F, fl, hF, hs, hc, hl⟩ := checks_of_load_ok h h0
  obtain ⟨hf, _⟩ := List.getElem?_eq_some_iff.1 hF
  cases (exec_load_ok hF hs hc hl).symm.trans h
  have hbody := dumpBody_of_loadFields hs hl hn (some buf) F.pver
  have hdlen : (fl.frame (some buf) F.pver).dlen = n.toNat := (loadFields_length hl hn).1
  refine ⟨_, _, exec_dump (List.getElem?_set_self hf) (hdlen.trans_le (Nat.le_of_lt_succ n.isLt)), rfl, fun hsame => ?_,
    fun hlen => ?_⟩
  · rw [← hsame, dumpFrame_length, hdlen]
  · have hstart : buf.length - 2 = 10 + n.toNat := by omega
    have hbuf := eq_append_trailer hs hc
    rw [bufferSum, slice_zero, hstart, ← hbody, ← dumpFrame_eq_body] at hbuf
    exact hbuf.symm

end Sys2Proof.Machine
end

section
/-! The operations that assign fields of one frame (41_frame R93-R99), and the frames DUMP does not tell apart (70_reset R149). -/

namespace Sys2Proof

theorem addrOperand_hex {t : List Char} {a : Addr} (h : unhex t = some a.bytes) : addrOperand (.hex t) = .ok a := by
  simp only [addrOperand, sequenceOperand, h]
  rfl

theorem dataOperand_hex {t : List Char} {d : List Byte} (h : unhex t = some d) (hd : d.length ≤ N_MAX) :
    dataOperand (.hex t) = .ok d := by
  simp only [dataOperand, sequenceOperand, h]
  exact if_pos hd

end Sys2Proof

namespace Sys2Proof.Machine

/-- Settles O22: FNEW assigns the fresh frame, its control unpacked as in R84. -/
theorem fnewMakesAFreshFrame : Obligations.FnewMakesAFreshFrame := by
  intro f v s hf
  refine ⟨decodeOfEncodeIsTheOperation (.fnew f .a) rfl, decodeOfEncodeIsTheOperation (.fnew f .b) rfl, ?_⟩
  rw [← ctrlDec_eq]
  exact assign_of_get (List.getElem?_eq_getElem hf)

/-- Settles O23: the address alone is assigned, and the broadcast address is its own wire form. -/
theorem setaddrAndClraddrAssignTheAddress : Obligations.SetaddrAndClraddrAssignTheAddress := by
  intro f s F hF
  obtain ⟨_, haddr, _⟩ := dumpFrame_head { F with addr := none }
  exact ⟨fun a => ⟨decodeOfEncodeIsTheOperation (.setaddr f a) rfl,
      fun t ht => decode_of_assemble (m := .setaddr) (by decide) (congrArg (Except.map _) (addrOperand_hex ht)),
      assign_of_get hF⟩,
    decodeOfEncodeIsTheOperation (.clraddr f) rfl, assign_of_get hF, dumpFrame_congr rfl rfl rfl, haddr⟩

/-- Settles O24, by the operands the encoder writes and the assignment of the control. -/
theorem setctrlAssignsTheFourFields : Obligations.SetctrlAssignsTheFourFields := fun f _ _ dir resp more func hF =>
  ⟨decodeOfEncodeIsTheOperation (.setctrl f dir resp more func) rfl, assign_of_get hF⟩

/-- Settles O25: the decoder and the operation make the same check of the length, and empty data have the wire form of absent
data. -/
theorem setdataAndClrdataAssignTheData : Obligations.SetdataAndClrdataAssignTheData := by
  intro f s F hF
  obtain ⟨_, _, _, _, hdlen⟩ := dumpFrame_head { F with data := none }
  refine ⟨fun d hd => ⟨decodeOfEncodeIsTheOperation (.setdata f d) (decide_eq_true hd), fun t ht => ?_,
      (if_pos hd).trans (assign_of_get hF), rfl⟩,
    fun d hd => ⟨?_, if_neg (Nat.not_le.2 hd)⟩,
    decodeOfEncodeIsTheOperation (.clrdata f) rfl, assign_of_get hF, rfl, dumpFrame_congr rfl rfl rfl, dumpFrame_length _, hdlen⟩
  · exact decode_of_assemble (m := .setdata) (by decide) (congrArg (Except.map _) (dataOperand_hex ht hd))
  · exact decode_of_assemble (m := .setdata) (by decide) (congrArg (Except.map _) (dataOperand_of_length_gt hd))

/-- Settles O26: the tag alone is assigned, and DUMP reads neither it nor the raw bytes. -/
theorem setpverAssignsATagDumpNeverReads : Obligations.SetpverAssignsATagDumpNeverReads := fun f _ _ hF =>
  ⟨decodeOfEncodeIsTheOperation (.setpver f .a) rfl, decodeOfEncodeIsTheOperation (.setpver f .b) rfl,
    fun _ => assign_of_get hF, fun _ _ => dumpFrame_congr rfl rfl rfl⟩

/-- Settles O34: broadcast address and empty data have the wire form of the absent field. -/
theorem absentFieldsDumpLikeTheirAliases : Obligations.AbsentFieldsDumpLikeTheirAliases := by
  intro F x y hx hy
  have haddr : addrEnc x = addrEnc none := by rcases hx with rfl | rfl <;> rfl
  have hdata : dataEnc y = dataEnc none := by rcases hy with rfl | rfl <;> rfl
  exact ⟨dumpFrame_congr haddr rfl rfl, dumpFrame_congr rfl rfl hdata, dumpFrame_congr haddr rfl hdata⟩

end Sys2Proof.Machine
end

section
/-! The READ step (42_stream R106): its arms, and the end of a READ as LOAD into a temporary frame (R110). -/

namespace Sys2Proof.Machine

/-- The state once a step has taken the next symbol of the source, and its sample of the reset input (20_memory R45, R46). -/
def State.pastSymbol (s : State) : State := (s.setResetLine s.resetLine.tail).takeSymbol

theorem State.rxFull_iff (s : State) : s.rxFull = true ↔ s.rxBufMax = some s.rxBuf.length := by
  unfold State.rxFull
  cases s.rxBufMax with
  | none => simp
  | some m => simp [eq_comm]

theorem State.rxFull_eq_false {s : State} (h : s.rxBufMax ≠ some s.rxBuf.length) : s.rxFull = false := by
  rw [← Bool.not_eq_true, State.rxFull_iff]
  exact h

theorem readByte_wake (f : Nat) (v : Version) (s : State) : readByte f v WAKE s = .next s := if_pos rfl

section
variable {b : Byte} (hw : b ≠ WAKE) (f : Nat) (v : Version) {s : State}
include hw

theorem readByte_full (h : s.rxBufMax = some s.rxBuf.length) :
    readByte f v b s = .next ((s.setRx .idle).raise .overflowFault) :=
  (if_neg hw).trans (if_pos (s.rxFull_iff.2 h))

theorem readByte_append (he : b ≠ END) (h : s.rxBufMax ≠ some s.rxBuf.length) :
    readByte f v b s = .next (s.setRxBuf (s.rxBuf ++ [b])) := by
  simp only [readByte, if_neg hw, State.rxFull_eq_false h, if_neg he, Bool.false_eq_true, if_false]

end

theorem readByte_end (f : Nat) (v : Version) {s : State} (h : s.rxBufMax ≠ some s.rxBuf.length) :
    readByte f v END s = finishRead f v (s.setRxBuf (s.rxBuf ++ [END])) := by
  have hw : END ≠ WAKE := by decide
  simp only [readByte, if_neg hw, State.rxFull_eq_false h, if_true, Bool.false_eq_true, if_false]

/-- The state in which a READ for context f ends whose buffer holds `buf`: outcome, `ACC` and `STATUS.ERR` of LOAD into a fresh frame,
and that frame in `F[f]` when LOAD returned Ok (42_stream R106, R110). -/
def State.deliver (s : State) (f : Nat) (v : Version) (buf : List Byte) : State :=
  let r := loadFrame (freshFrame s.ctrlDefault v) s.acc buf
  let s' := (((s.setRxBuf buf).setRx .idle).setAcc r.acc).finish r.error
  { s' with ctx := if r.error = none then s.ctx.set f r.frame else s.ctx }

theorem finishRead_eq_deliver {f : Nat} {s : State} (hf : f < s.ctx.length) (v : Version) (buf : List Byte) :
    finishRead f v (s.setRxBuf buf) = .next (s.deliver f v buf) := by
  rcases finishRead_cases f v (s.setRxBuf buf) with ⟨e, he, h⟩ | ⟨he, _, h⟩ | ⟨_, hle, _⟩
  · rw [h]
    simp only [State.setRxBuf_ctrlDefault, State.setRxBuf_acc, State.setRxBuf_rxBuf] at he ⊢
    simp only [State.deliver, he, reduceCtorEq, if_false]
    rfl
  · rw [h]
    simp only [State.setRxBuf_ctrlDefault, State.setRxBuf_acc, State.setRxBuf_rxBuf] at he ⊢
    simp only [State.deliver, he, if_true]
    rfl
  · exact absurd hf (Nat.not_lt.2 hle)

section
variable {s : State} {f : Nat} {v : Version} (hr : s.rx = .accumulating f v) (hl : s.resetLine.head? ≠ some true)
include hr hl

theorem step_of_noByte (h : s.nextSymbol = .noByte) :
    step s = .next ((s.pastSymbol.setRx .idle).raise .timeoutError) := by
  have hsym : (s.setResetLine s.resetLine.tail).nextSymbol = .noByte := h
  rw [step_of_accumulating hr hl, readStep, hsym]
  rfl

theorem step_of_byte {b : Byte} (h : s.nextSymbol = .byte b) : step s = readByte f v b s.pastSymbol := by
  have hsym : (s.setResetLine s.resetLine.tail).nextSymbol = .byte b := h
  rw [step_of_accumulating hr hl, readStep, hsym]
  rfl

theorem step_of_end (hf : f < s.ctx.length) (h : s.nextSymbol = .byte END) (hroom : s.rxBufMax ≠ some s.rxBuf.length) :
    step s = .next (s.pastSymbol.deliver f v (s.rxBuf ++ [END])) :=
  calc step s
    _ = readByte f v END s.pastSymbol := step_of_byte hr hl h
    _ = finishRead f v (s.pastSymbol.setRxBuf (s.rxBuf ++ [END])) := readByte_end f v (s := s.pastSymbol) hroom
    _ = .next (s.pastSymbol.deliver f v (s.rxBuf ++ [END])) := finishRead_eq_deliver (s := s.pastSymbol) hf v _

end

theorem State.finish_statusErr_eq_zero_iff (s : State) (o : Option OpError) : (s.finish o).statusErr = 0 ↔ o = none :=
  ⟨State.finish_statusErr_eq_zero, fun h => by rw [h]; rfl⟩

theorem exec_load {f : Nat} {s : State} {F : Frame} (hF : s.ctx[f]? = some F) (buf : List Byte) :
    exec (.load f buf) s = .next (((s.setFrame f (loadFrame F s.acc buf).frame).setAcc (loadFrame F s.acc buf).acc).finish
      (loadFrame F s.acc buf).error) :=
  withFrame_of_get hF

/-- What a READ delivers is what LOAD makes of a machine whose one context is fresh; LOAD sees nothing of the source and of the
reset input. -/
theorem deliver_eq_load (s : State) (f : Nat) (v : Version) (buf : List Byte) :
    ∃ (L : Frame) (w : State),
      exec (.load 0 buf) { s with ctx := [freshFrame s.ctrlDefault v], rx := .idle } = .next w ∧ w.ctx = [L] ∧
      ∀ (src : List Symbol) (n : Nat) (line : List Bool),
        State.deliver { s with source := src, rxTaken := n, resetLine := line } f v buf =
          { s with
            source := src, rxTaken := n, resetLine := line
            rxBuf := buf, rx := .idle, acc := w.acc, statusErr := w.statusErr, results := w.results
            ctx := if w.statusErr = 0 then s.ctx.set f L else s.ctx } := by
  refine ⟨_, _, exec_load (F := freshFrame s.ctrlDefault v) rfl buf, State.finish_ctx _ _, fun src n line => ?_⟩
  simp only [State.finish_statusErr_eq_zero_iff, State.deliver]
  cases (loadFrame (freshFrame s.ctrlDefault v) s.acc buf).error <;> rfl

/-- LOAD that ends Ok leaves the buffer as the raw bytes, and the version as it was (41_frame R100). -/
theorem loadFrame_raw_pver {F : Frame} {acc : Byte} {buf : List Byte} (h : (loadFrame F acc buf).error = none) :
    (loadFrame F acc buf).frame.raw = some buf ∧ (loadFrame F acc buf).frame.pver = F.pver := by
  rcases loadFrame_cases F acc buf with ⟨_, hl⟩ | ⟨_, _, hl⟩ | ⟨_, _, _, hl⟩ | ⟨_, _, fl, _, hl⟩
  · cases (congrArg Loaded.error hl).symm.trans h
  · cases (congrArg Loaded.error hl).symm.trans h
  · cases (congrArg Loaded.error hl).symm.trans h
  · rw [hl]
    exact ⟨rfl, rfl⟩

/-- Settles O37: READ's start, on a context that exists. -/
theorem readStartsWithAnEmptyBuffer : Obligations.ReadStartsWithAnEmptyBuffer := fun f _ _ hf =>
  ⟨decodeOfEncodeIsTheOperation (.read f .a) rfl, decodeOfEncodeIsTheOperation (.read f .b) rfl,
    withFrame_of_get (List.getElem?_eq_getElem hf)⟩

/-- Settles O38, one arm of the READ step each. -/
theorem readStepTakesASymbol : Obligations.ReadStepTakesASymbol := fun s f v hr hl =>
  ⟨step_of_noByte hr hl,
    fun h => (step_of_byte hr hl h).trans (readByte_wake f v s.pastSymbol),
    fun _ h hw hfull => (step_of_byte hr hl h).trans (readByte_full hw f v (s := s.pastSymbol) hfull),
    fun _ h hw he hroom => (step_of_byte hr hl h).trans (readByte_append hw f v (s := s.pastSymbol) he hroom)⟩

/-- Settles O39: the step delivers, which is LOAD into the temporary. -/
theorem readEndsByLoadingATemporary : Obligations.ReadEndsByLoadingATemporary := by
  intro s f v hr hl hf h hroom
  obtain ⟨L, w, hload, hctx, hdeliver⟩ := deliver_eq_load s f v (s.rxBuf ++ [END])
  exact ⟨L, w, hload, hctx, (step_of_end hr hl hf h hroom).trans (congrArg Host.Outcome.next (hdeliver _ _ _))⟩

/-- Settles O45: of the READ step's arms only the Ok end assigns a frame. -/
theorem noPartialFrameIsDelivered : Obligations.NoPartialFrameIsDelivered := by
  intro s t f v hr hl hstep hne
  cases hsym : s.nextSymbol with
  | noByte =>
    cases (step_of_noByte hr hl hsym).symm.trans hstep
    exact absurd rfl hne
  | byte b =>
    have ht : readByte f v b s.pastSymbol = .next t := (step_of_byte hr hl hsym).symm.trans hstep
    rcases readByte_cases f v b s.pastSymbol with ⟨_, hb⟩ | ⟨_, _, hb⟩ | ⟨_, _, _, hb⟩ | ⟨_, _, rfl, hb⟩
    · cases hb.symm.trans ht
      exact absurd rfl hne
    · cases hb.symm.trans ht
      exact absurd rfl hne
    · cases hb.symm.trans ht
      exact absurd rfl hne
    · rcases finishRead_cases f v (s.pastSymbol.setRxBuf (s.rxBuf ++ [END])) with ⟨_, _, hf⟩ | ⟨he, _, hf⟩ | ⟨_, _, hf⟩
      · cases (hb.trans hf).symm.trans ht
        exact absurd rfl hne
      · cases (hb.trans hf).symm.trans ht
        exact ⟨rfl, rfl, rfl, rfl, rfl, _, rfl, loadFrame_raw_pver he⟩
      · cases (hb.trans hf).symm.trans ht

end Sys2Proof.Machine
end

section
/-! A READ over a run of symbols (42_stream R107): it takes the symbols that do not end it, and the next one ends it. -/

namespace Sys2Proof.Machine

/-- The state of a READ that has taken the symbols l, none of which ended it, with `rest` left in the source. -/
def State.accumulated (s : State) (l rest : List Symbol) : State :=
  { s with source := rest, rxTaken := s.rxTaken + l.length, rxBuf := s.rxBuf ++ keptBytes l }

/-- The reader's buffer is not full at any time while n bytes are appended to it (42_stream R106). -/
def State.hasRoom (s : State) (n : Nat) : Prop := ∀ k < n, s.rxBufMax ≠ some (s.rxBuf.length + k)

theorem State.hasRoom_of_holds {s : State} {n : Nat} (hb : s.rxBuf = []) (h : s.holds n = true) : s.hasRoom n := by
  intro k hk hmax
  simp only [State.holds, hmax, hb, List.length_nil, decide_eq_true_eq] at h
  omega

theorem State.hasRoom.mono {s : State} {m n : Nat} (h : s.hasRoom n) (hmn : m ≤ n) : s.hasRoom m :=
  fun k hk => h k (hk.trans_le hmn)

@[simp] theorem keptBytes_nil : keptBytes [] = [] := rfl

@[simp] theorem keptBytes_wake (l : List Symbol) : keptBytes (.byte WAKE :: l) = keptBytes l := rfl

theorem keptBytes_byte {b : Byte} (hw : b ≠ WAKE) (l : List Symbol) : keptBytes (.byte b :: l) = b :: keptBytes l := by
  simp [keptBytes, hw]

theorem endless_cons {x : Symbol} {l : List Symbol} :
    endless (x :: l) = true ↔ (∃ b, x = .byte b ∧ b ≠ END) ∧ endless l = true := by
  cases x <;> simp [endless]

theorem run_succ {s t : State} (h : step s = .next t) (k : Nat) : run (k + 1) s = run k t := by
  simp only [run, h]

theorem run_one (s : State) : run 1 s = step s := by
  simp only [run]
  cases step s <;> rfl

section
variable {s : State} {f : Nat} {v : Version}

theorem State.hasRoom.accumulated {n : Nat} {l rest : List Symbol} (h : s.hasRoom ((keptBytes l).length + n)) :
    (s.accumulated l rest).hasRoom n := by
  intro k hk
  have hne := h ((keptBytes l).length + k) (by omega)
  simpa [State.accumulated, Nat.add_assoc] using hne

/-- Taking one symbol and then the symbols l is taking them together. -/
theorem accumulated_cons (s : State) (x : Symbol) (l rest : List Symbol) :
    (s.accumulated [x] (l ++ rest)).accumulated l rest = s.accumulated (x :: l) rest := by
  simp only [State.accumulated, List.length_cons, List.length_nil, List.append_assoc]
  have hkept : keptBytes [x] ++ keptBytes l = keptBytes (x :: l) := (List.filterMap_append (l := [x])).symm
  have htaken : s.rxTaken + (0 + 1) + l.length = s.rxTaken + (l.length + 1) := by omega
  rw [hkept, htaken]

/-- One symbol that does not end a READ: a wake byte is dropped, another byte appended (42_stream R106). -/
theorem step_of_ordinary (hr : s.rx = .accumulating f v) (hl : s.resetLine = []) {b : Byte} {l : List Symbol}
    (hsrc : s.source = .byte b :: l) (he : b ≠ END) (hroom : s.hasRoom (keptBytes [.byte b]).length) :
    step s = .next (s.accumulated [.byte b] l) := by
  have hb : step s = readByte f v b s.pastSymbol := step_of_byte hr (by simp [hl]) (nextSymbol_of_source hsrc)
  by_cases hw : b = WAKE
  · subst hw
    rw [hb, readByte_wake]
    simp [State.pastSymbol, State.takeSymbol, State.setResetLine, State.accumulated, hsrc, hl]
  · rw [keptBytes_byte hw] at hroom
    rw [hb, readByte_append hw f v (s := s.pastSymbol) he (hroom 0 Nat.zero_lt_one)]
    simp [State.pastSymbol, State.takeSymbol, State.setResetLine, State.setRxBuf, State.accumulated, keptBytes_byte hw, hsrc, hl]

/-- A READ takes every symbol of a run without no-byte and end marker, one a step, while its buffer has room (42_stream R107). -/
theorem run_endless {l rest : List Symbol} (hr : s.rx = .accumulating f v) (hl : s.resetLine = []) (he : endless l = true)
    (hsrc : s.source = l ++ rest) (hroom : s.hasRoom (keptBytes l).length) :
    run l.length s = .next (s.accumulated l rest) := by
  induction l generalizing s with
  | nil =>
    have hs : s.accumulated [] rest = s := by simp [State.accumulated, ← (show s.source = rest from hsrc)]
    rw [hs]
    rfl
  | cons x l ih =>
    obtain ⟨⟨b, rfl, hb⟩, hrest⟩ := endless_cons.1 he
    have hkept : (keptBytes (.byte b :: l)).length = (keptBytes [.byte b]).length + (keptBytes l).length :=
      (congrArg List.length (List.filterMap_append (l := [_]))).trans List.length_append
    rw [hkept] at hroom
    have hstep := step_of_ordinary (l := l ++ rest) hr hl hsrc hb (hroom.mono (Nat.le_add_right _ _))
    have hrun := ih (s := s.accumulated [.byte b] (l ++ rest)) hr hl hrest rfl hroom.accumulated
    rw [List.length_cons, run_succ hstep, hrun, accumulated_cons]

end

/-- The state of a READ from an empty buffer that has taken the symbols l and the one behind them, before it acts on that one. -/
def State.through (s : State) (l rest : List Symbol) : State :=
  { s with source := rest, rxTaken := s.rxTaken + l.length + 1, rxBuf := keptBytes l }

section
variable {s : State} {f : Nat} {v : Version} {l rest : List Symbol} {x : Symbol} (hr : s.rx = .accumulating f v)
  (hb : s.rxBuf = []) (hl : s.resetLine = []) (he : endless l = true)
include hr hb hl he

/-- The symbol behind a run without no-byte and end marker is taken by the next step. -/
theorem run_endless_succ (hsrc : s.source = l ++ x :: rest) (hroom : s.hasRoom (keptBytes l).length) :
    run (l.length + 1) s = step (s.accumulated l (x :: rest)) ∧ (s.accumulated l (x :: rest)).pastSymbol = s.through l rest := by
  refine ⟨(run_add 1 (run_endless hr hl he hsrc hroom)).trans (run_one _), ?_⟩
  simp [State.pastSymbol, State.takeSymbol, State.setResetLine, State.accumulated, State.through, hb, hl]

theorem run_to_noByte (hsrc : s.source = l ++ .noByte :: rest) (hroom : s.hasRoom (keptBytes l).length) :
    run (l.length + 1) s = .next (((s.through l rest).setRx .idle).raise .timeoutError) := by
  obtain ⟨hrun, hpast⟩ := run_endless_succ hr hb hl he hsrc hroom
  have hstep := step_of_noByte (s := s.accumulated l (.noByte :: rest)) hr (by simp [State.accumulated, hl]) rfl
  rw [hrun, hstep, hpast]

theorem run_to_overflow {b : Byte} (hw : b ≠ WAKE) (hsrc : s.source = l ++ .byte b :: rest)
    (hfull : s.rxBufMax = some (keptBytes l).length) :
    run (l.length + 1) s = .next (((s.through l rest).setRx .idle).raise .overflowFault) := by
  have hroom : s.hasRoom (keptBytes l).length := State.hasRoom_of_holds hb (by simp [State.holds, hfull])
  obtain ⟨hrun, hpast⟩ := run_endless_succ hr hb hl he hsrc hroom
  have hstep := step_of_byte (s := s.accumulated l (.byte b :: rest)) hr (by simp [State.accumulated, hl]) rfl
  rw [hrun, hstep, hpast, readByte_full hw f v (s := s.through l rest) hfull]

theorem run_to_end (hf : f < s.ctx.length) (hsrc : s.source = l ++ .byte END :: rest)
    (hroom : s.hasRoom ((keptBytes l).length + 1)) :
    run (l.length + 1) s = .next ((s.through l rest).deliver f v (keptBytes l ++ [END])) := by
  obtain ⟨hrun, hpast⟩ := run_endless_succ hr hb hl he hsrc (hroom.mono (Nat.le_succ _))
  have hbuf : (s.accumulated l (.byte END :: rest)).rxBuf = keptBytes l := by simp [State.accumulated, hb]
  have hstep := step_of_end (s := s.accumulated l (.byte END :: rest)) hr (by simp [State.accumulated, hl]) hf rfl
    (hroom.accumulated 0 Nat.zero_lt_one)
  rw [hrun, hstep, hpast, hbuf]

end

/-- Settles O40: the READ delivers what it kept, which is LOAD into the temporary. -/
theorem readConsumesThroughTheFirstMarker : Obligations.ReadConsumesThroughTheFirstMarker := by
  intro s f v l rest hr hb hl hf he hsrc hroom
  obtain ⟨L, w, hload, hctx, hdeliver⟩ := deliver_eq_load s f v (keptBytes l ++ [END])
  have hrun := run_to_end hr hb hl he hf hsrc (State.hasRoom_of_holds hb hroom)
  exact ⟨L, w, hload, hctx, hrun.trans (congrArg Host.Outcome.next (hdeliver rest _ s.resetLine))⟩

/-- Settles O41, by the run up to the no-byte symbol. -/
theorem timeoutYieldsNoFrame : Obligations.TimeoutYieldsNoFrame := fun _ _ _ _ _ hr hb hl he hsrc hroom =>
  run_to_noByte hr hb hl he hsrc (State.hasRoom_of_holds hb hroom)

/-- Settles O42, by the run up to the byte that does not fit. -/
theorem overflowEndsTheReadAtTheByteThatDoesNotFit : Obligations.OverflowEndsTheReadAtTheByteThatDoesNotFit :=
  fun _ _ _ _ _ _ hr hb hl he hw hsrc hfull => run_to_overflow hr hb hl he hw hsrc hfull

/-- Wake bytes leave nothing in the buffer (42_stream R108). -/
theorem keptBytes_filter_wake (l : List Symbol) : keptBytes (l.filter (· ≠ .byte 0xfe)) = keptBytes l := by
  rw [keptBytes, List.filterMap_filter]
  refine List.filterMap_congr fun x _ => ?_
  by_cases hx : x = .byte 0xfe
  · subst hx
    rfl
  · exact if_pos (decide_eq_true hx)

/-- The count of symbols taken plays no part in what a READ delivers. -/
theorem deliver_forgets_rxTaken (s : State) (f : Nat) (v : Version) (buf : List Byte) (n : Nat) :
    { State.deliver { s with rxTaken := n } f v buf with rxTaken := 0 } = { s.deliver f v buf with rxTaken := 0 } := by
  simp only [State.deliver]
  cases (loadFrame (freshFrame s.ctrlDefault v) s.acc buf).error <;> rfl

@[simp] theorem deliver_rx (s : State) (f : Nat) (v : Version) (buf : List Byte) : (s.deliver f v buf).rx = .idle :=
  State.finish_rx _ _

theorem deliver_results_length (s : State) (f : Nat) (v : Version) (buf : List Byte) :
    (s.deliver f v buf).results.length = s.results.length + 1 := by
  rw [State.deliver, State.finish_results, List.length_append]
  rfl

/-- Settles O43: both runs keep the same bytes and end alike. -/
theorem wakeBytesAreTransparentToRead : Obligations.WakeBytesAreTransparentToRead := by
  intro s f v x l₁ l₂ rest hr hb hl hf he₁ he₂ hx hfilter hholds
  have hkept : keptBytes l₁ = keptBytes l₂ := by rw [← keptBytes_filter_wake l₁, hfilter, keptBytes_filter_wake]
  have hroom : s.hasRoom ((keptBytes l₁).length + 1) := State.hasRoom_of_holds hb hholds
  have hroom₂ : s.hasRoom ((keptBytes l₂).length + 1) := hkept ▸ hroom
  rcases hx with rfl | rfl
  · refine ⟨_, _,
      run_to_noByte (s := { s with source := l₁ ++ .noByte :: rest }) hr hb hl he₁ rfl (hroom.mono (Nat.le_succ _)),
      run_to_noByte (s := { s with source := l₂ ++ .noByte :: rest }) hr hb hl he₂ rfl (hroom₂.mono (Nat.le_succ _)), rfl,
      List.length_append, ?_⟩
    simp only [State.through, hkept]
    rfl
  · refine ⟨_, _, run_to_end (s := { s with source := l₁ ++ .byte END :: rest }) hr hb hl he₁ hf rfl hroom,
      run_to_end (s := { s with source := l₂ ++ .byte END :: rest }) hr hb hl he₂ hf rfl hroom₂, deliver_rx _ _ _ _,
      deliver_results_length _ _ _ _, ?_⟩
    have hforget := deliver_forgets_rxTaken (s.through l₂ rest) f v (keptBytes l₂ ++ [END])
    simp only [State.through, hkept]
    exact (hforget (s.rxTaken + l₁.length + 1)).trans (hforget (s.rxTaken + l₂.length + 1)).symm

end Sys2Proof.Machine
end

section
/-! WRITE and the discovery request (42_stream R112, R114), and a frame's way through WRITE and READ (R113). -/

namespace Sys2Proof.Machine

theorem exec_write {f : Nat} {s : State} {F : Frame} (hF : s.ctx[f]? = some F) (hd : F.dlen ≤ 255) (wake : Bool) :
    exec (.write f wake) s =
      .next (((s.setAcc (sum8 (dumpBody F))).txWrite (preamble wake ++ dumpFrame F)).answer .unit) :=
  withDump_of_get (k := fun s' out => .next ((s'.txWrite (preamble wake ++ out)).answer .unit)) hF (decide_eq_true hd)

/-- What WRITE does to the registers, register by register. -/
theorem State.setAcc_txWrite_answer (s : State) (a : Byte) (out : List Byte) (v : Value) :
    ((s.setAcc a).txWrite out).answer v =
      { s with acc := a, sink := s.sink ++ [out], results := s.results ++ [.ok v] } := rfl

theorem preamble_eq (wake : Bool) : preamble wake = if wake then [0xfe, 0xfe, 0xfe, 0xfe] else [] := by cases wake <;> rfl

/-- Settles O46: WRITE serialises as DUMP does, and sends the bytes after the preamble asked for. -/
theorem writeSendsThePreambleAndTheDump : Obligations.WriteSendsThePreambleAndTheDump := by
  intro f s F hF hlen
  refine ⟨decodeOfEncodeIsTheOperation (.write f true) rfl, decodeOfEncodeIsTheOperation (.write f false) rfl, dumpFrame F,
    sum8 (dumpBody F), dumpFrame_length F, ?_, fun wake => ?_⟩
  · rw [exec_dump hF hlen, State.setAcc_answer]
  · rw [exec_write hF hlen, State.setAcc_txWrite_answer, preamble_eq]

/-- The block is idle and the reset input has no samples left: the next steps issue the commands `cs` (70_reset R156). -/
structure State.Ready (s : State) (cs : List Command) : Prop where
  idle : s.rx = .idle
  noSample : s.resetLine = []
  pending : s.pending = cs

/-- A ready block does the operation whose command is next. -/
theorem State.Ready.step_eq {s : State} {i : Instr} {cs : List Command} (h : s.Ready (encode i :: cs))
    (hi : i.wellFormed = true) : step s = exec i (s.setPending cs) := by
  have hs : s.setResetLine s.resetLine.tail = s := by
    rw [h.noSample]
    exact (congrArg s.setResetLine h.noSample).symm
  rw [step_of_idle h.idle (by simp [h.noSample]), hs, issue_of_decode h.pending (decodeOfEncodeIsTheOperation i hi)]

/-- A ready block whose next operation assigns a frame is then ready for the other commands, with the frame assigned. -/
theorem State.Ready.step_assign {s : State} {i : Instr} {cs : List Command} {f : Nat} {F : Frame} {g : Frame → Frame}
    (h : s.Ready (encode i :: cs)) (hi : i.wellFormed = true) (hexec : exec i (s.setPending cs) = assign f (s.setPending cs) g)
    (hF : s.ctx[f]? = some F) : ∃ t, step s = .next t ∧ t.Ready cs ∧ t.ctx[f]? = some (g F) ∧ t.sink = s.sink := by
  obtain ⟨hf, _⟩ := List.getElem?_eq_some_iff.1 hF
  exact ⟨_, (h.step_eq hi).trans (hexec.trans (assign_of_get hF)), ⟨h.idle, h.noSample, rfl⟩, List.getElem?_set_self hf, rfl⟩

/-- The frame of the discovery request: no address, no data, control byte 0x13 (42_stream R114). -/
def discoveryFrame : Frame :=
  { addr := none, ctrl := ⟨false, false, false, 0x13⟩, data := none, raw := none, pver := .a }

theorem discovery_eq : preamble true ++ dumpFrame discoveryFrame = DISCOVERY := by decide

/-- Settles O47: three assignments make the request's frame, and WRITE sends its dump after the preamble. -/
theorem discoverSendsTheDiscoveryRequest : Obligations.DiscoverSendsTheDiscoveryRequest := by
  intro f s hf hr hl
  have ready : State.Ready { s with pending := (discover f).map encode ++ s.pending }
      (encode (.fnew f .a) :: encode (.clraddr f) :: encode (.setctrl f false false false 0x13) :: encode (.write f true) ::
        s.pending) := ⟨hr, hl, rfl⟩
  obtain ⟨t₁, hstep₁, ready₁, hF₁, hsink₁⟩ := ready.step_assign rfl rfl (List.getElem?_eq_getElem hf)
  obtain ⟨t₂, hstep₂, ready₂, hF₂, hsink₂⟩ := ready₁.step_assign rfl rfl hF₁
  obtain ⟨t₃, hstep₃, ready₃, hF₃, hsink₃⟩ := ready₂.step_assign rfl rfl hF₂
  have hrequest : (t₃.setPending s.pending).ctx[f]? = some discoveryFrame := hF₃
  have hwrite := (ready₃.step_eq rfl).trans (exec_write hrequest (Nat.zero_le _) true)
  refine ⟨_, (run_succ hstep₁ 3).trans <| (run_succ hstep₂ 2).trans <| (run_succ hstep₃ 1).trans <|
    (run_one t₃).trans hwrite, ?_, rfl⟩
  rw [State.answer_sink, State.txWrite_sink, State.setAcc_sink, State.setPending_sink, hsink₃, hsink₂, hsink₁, discovery_eq]
  rfl

theorem keptBytes_map_byte (l : List Byte) : keptBytes (l.map .byte) = l.filter (· ≠ WAKE) := by
  induction l with
  | nil => rfl
  | cons b l ih =>
    rcases eq_or_ne b WAKE with rfl | hw
    · exact ih
    · rw [List.map_cons, keptBytes_byte hw, ih, List.filter_cons, if_pos (decide_eq_true hw)]

theorem endless_map_byte {l : List Byte} (h : END ∉ l) : endless (l.map .byte) = true := by
  refine List.all_eq_true.2 fun x hx => ?_
  obtain ⟨b, hb, rfl⟩ := List.mem_map.1 hx
  have hne : b ≠ END := fun he => h (he ▸ hb)
  simp [hne]

theorem not_mem_preamble {b : Byte} (h : b ≠ WAKE) (wake : Bool) : b ∉ preamble wake := by
  cases wake with
  | false => exact List.not_mem_nil
  | true => exact fun hb => h (List.eq_of_mem_replicate hb)

theorem filter_preamble (wake : Bool) : (preamble wake).filter (· ≠ WAKE) = [] := by cases wake <;> rfl

/-- The symbols of a frame that was sent, up to its end marker (42_stream R112). -/
def sentBeforeEnd (wake : Bool) (F : Frame) : List Symbol := (preamble wake ++ (dumpFrame F).dropLast).map .byte

theorem dropLast_dumpFrame_append (F : Frame) : (dumpFrame F).dropLast ++ [END] = dumpFrame F := by
  rw [dumpFrame, List.dropLast_concat]

theorem map_sent_eq (wake : Bool) (F : Frame) :
    (preamble wake ++ dumpFrame F).map Symbol.byte = sentBeforeEnd wake F ++ [.byte END] := by
  rw [← dropLast_dumpFrame_append, ← List.append_assoc, List.map_append]
  rfl

theorem endless_sentBeforeEnd {F : Frame} (hend : END ∉ (dumpFrame F).dropLast) (wake : Bool) :
    endless (sentBeforeEnd wake F) = true :=
  endless_map_byte fun h => (List.mem_append.1 h).elim (not_mem_preamble (by decide) wake) hend

theorem keptBytes_sentBeforeEnd {F : Frame} (hwake : WAKE ∉ dumpFrame F) (wake : Bool) :
    keptBytes (sentBeforeEnd wake F) = (dumpFrame F).dropLast := by
  rw [sentBeforeEnd, keptBytes_map_byte, List.filter_append, filter_preamble, List.nil_append, List.filter_eq_self]
  exact fun b hb => decide_eq_true fun hw => hwake (hw ▸ List.mem_of_mem_dropLast hb)

/-- A READ that ends on a buffer past LOAD's checks delivers the buffer's fields, with the READ's version (42_stream R106). -/
theorem deliver_ok {buf : List Byte} {fl : Fields} (hs : structureHolds buf = true) (hc : checksumHolds buf = true)
    (hl : loadFields buf = some fl) (s : State) (g : Nat) (v : Version) :
    s.deliver g v buf =
      { s with
        ctx := s.ctx.set g (fl.frame (some buf) v), rxBuf := buf, rx := .idle, acc := bufferSum buf, statusErr := 0
        results := s.results ++ [.ok .unit] } := by
  simp only [State.deliver, loadFrame_ok hs hc hl]
  rfl

/-- A READ of a frame that was sent, without inner wake bytes and end markers, ends with the dump in its buffer (42_stream R113). -/
theorem run_of_sent {s : State} {g : Nat} {v : Version} {F : Frame} {wake : Bool} {rest : List Symbol}
    (hr : s.rx = .accumulating g v) (hb : s.rxBuf = []) (hl : s.resetLine = []) (hg : g < s.ctx.length)
    (hholds : s.holds 267 = true) (hF : F.dlen ≤ 255) (hwake : WAKE ∉ dumpFrame F) (hend : END ∉ (dumpFrame F).dropLast)
    (hsrc : s.source = (preamble wake ++ dumpFrame F).map .byte ++ rest) :
    run (preamble wake ++ dumpFrame F).length s =
      .next ((s.through (sentBeforeEnd wake F) rest).deliver g v (dumpFrame F)) := by
  have hkept := keptBytes_sentBeforeEnd hwake wake
  have hlen : (preamble wake ++ dumpFrame F).length = (sentBeforeEnd wake F).length + 1 := by
    rw [← List.length_map (f := Symbol.byte), map_sent_eq, List.length_append]
    rfl
  have hroom : s.hasRoom ((keptBytes (sentBeforeEnd wake F)).length + 1) := by
    refine (State.hasRoom_of_holds hb hholds).mono ?_
    rw [hkept, List.length_dropLast, dumpFrame_length]
    omega
  have hrun := run_to_end hr hb hl (endless_sentBeforeEnd hend wake) hg
    (hsrc.trans (by rw [map_sent_eq, List.append_assoc, List.singleton_append])) hroom
  rw [hlen, hrun, hkept, dropLast_dumpFrame_append]

/-- Settles O48: of what WRITE sent a READ keeps the dump, whose last byte alone is the end marker, and delivers it. -/
theorem writeThenReadReturnsTheFrame : Obligations.WriteThenReadReturnsTheFrame := by
  intro f g v wake s t F sent rest hF hlen hg hholds hwake hend hexec hsink
  cases (exec_write hF hlen wake).symm.trans hexec
  obtain rfl : preamble wake ++ dumpFrame F = sent := by simpa using hsink
  refine ⟨_, run_of_sent rfl rfl rfl hg hholds hlen hwake hend rfl, ?_⟩
  rw [deliver_ok (structureHolds_dumpFrame F) (checksumHolds_dumpFrame F) (loadFields_dumpFrame hlen)]
  exact ⟨rfl, rfl, rfl, rfl, rfl⟩

/-- A frame whose checksum is `END` and whose one data byte, on the wire, is the sum of the bytes before it (log entry 9). -/
def innerMarkerFrame : Frame :=
  { addr := some ⟨0, 0, 0, 0, 0, 0xba⟩, ctrl := ⟨false, false, false, 0⟩, data := some [0x58], raw := none, pver := .a }

/-- The wire form of that frame, without its last byte. -/
def innerMarkerBytes : List Byte := [0x68, 0xba, 0, 0, 0, 0, 0, 0x68, 0x00, 0x01, 0x8b, 0x16]

/-- A block with one context, reading for it what WRITE would send of that frame. -/
def innerMarkerReader : State :=
  { State.resetWith 1 none 0 with rx := .accumulating 0 .a, source := (dumpFrame innerMarkerFrame).map .byte }

/-- Settles O49: the bytes up to the first end marker are themselves a frame, with the same fields. -/
theorem someFrameSurvivesAnInnerMarker : Obligations.SomeFrameSurvivesAnInnerMarker :=
  ⟨innerMarkerFrame, { innerMarkerFrame with raw := some innerMarkerBytes }, innerMarkerReader, _,
    by decide, rfl, rfl, rfl, rfl, rfl, rfl, rfl, rfl, rfl, rfl⟩

end Sys2Proof.Machine
end

section
/-! RESET and the reset input (43_system R115; 70_reset R138, R139): one effect on the block, two ways to bring it about. -/

namespace Sys2Proof.Machine

/-- The fresh frame of 41_frame R93, its control given by the fields of `CTRL_DEFAULT`. -/
theorem freshFrame_eq (c : Byte) (v : Version) : freshFrame c v =
    { addr := none, ctrl := ⟨c.getLsbD 7, c.getLsbD 6, c.getLsbD 5, BitVec.ofNat 5 (c.toNat % 32)⟩
      data := none, raw := none, pver := v } := by
  rw [freshFrame, ctrlDec_eq]

theorem resetBlock_ctx_eq_replicate (s : State) :
    s.resetBlock.ctx = List.replicate s.ctx.length (freshFrame s.ctrlDefault .a) := by
  rw [State.resetBlock_ctx, List.map_const']

/-- An asserted sample of the reset input is all its step acts on, whether or not a READ is in progress. -/
theorem step_of_resetLine {s : State} {l : List Bool} (hl : s.resetLine = true :: l) :
    step s = .next (s.setResetLine l).resetBlock := by
  obtain ⟨l', hl', hstep⟩ | ⟨hdeasserted, _⟩ := step_cases s
  · obtain rfl : l = l' := (List.cons.inj (hl.symm.trans hl')).2
    exact hstep
  · exact absurd (congrArg List.head? hl) hdeasserted

/-- Settles O50: the command and the input both do `State.resetBlock`, which makes every context fresh; the command alone
reports an outcome. -/
theorem resetMakesEveryContextFresh : Obligations.ResetMakesEveryContextFresh := by
  refine ⟨decodeOfEncodeIsTheOperation .reset rfl, fun s => ⟨s.resetBlock.ctx, ?_, rfl, fun l hl => step_of_resetLine hl⟩⟩
  rw [resetBlock_ctx_eq_replicate, freshFrame_eq]

end Sys2Proof.Machine
end

section
/-! LOAD's three errors as operations: what each leaves written (60_exceptions R119, R120, R122, R130). -/

namespace Sys2Proof.Machine

/-- Assigning a frame its own value assigns nothing. -/
theorem State.setFrame_of_get {s : State} {f : Nat} {F : Frame} (hF : s.ctx[f]? = some F) : s.setFrame f F = s := by
  obtain ⟨hf, rfl⟩ := List.getElem?_eq_some_iff.1 hF
  rw [State.setFrame, List.set_getElem_self]

section
variable {f : Nat} {buf : List Byte} {s : State} {F : Frame} (hF : s.ctx[f]? = some F)
include hF

theorem exec_load_structure (hs : structureHolds buf = false) :
    exec (.load f buf) s = .next (s.raise (.structureError buf)) := by
  rw [exec_load hF, loadFrame_structure hs, State.setFrame_of_get hF]
  rfl

theorem exec_load_checksum (hs : structureHolds buf = true) (hc : checksumHolds buf = false) :
    exec (.load f buf) s =
      .next (((s.setFrame f { F with raw := some buf }).setAcc (bufferSum buf)).raise .checksumError) := by
  rw [exec_load hF, loadFrame_checksum hs hc]
  rfl

theorem exec_load_length (hs : structureHolds buf = true) (hc : checksumHolds buf = true) (hl : loadFields buf = none) :
    exec (.load f buf) s =
      .next (((s.setFrame f { F with raw := some buf }).setAcc (bufferSum buf)).raise .lengthFault) := by
  rw [exec_load hF, loadFrame_length hs hc hl]
  rfl

end

/-- LOAD finds no fields in a buffer without a length byte, or with fewer data bytes than it counts (41_frame R100 corner case
(d)). -/
theorem loadFields_eq_none {buf : List Byte}
    (h : buf.length < 10 ∨ ∃ n : Byte, buf[9]? = some n ∧ buf.length < 10 + n.toNat) : loadFields buf = none := by
  rw [← Option.not_isSome_iff_eq_none, loadFields_isSome]
  rintro ⟨n, hn, hle⟩
  rcases h with hshort | ⟨n', hn', hlt⟩
  · omega
  · obtain rfl : n' = n := Option.some.inj (hn'.symm.trans hn)
    omega

/-- Settles O30: a missing marker fails the first check, before which LOAD writes nothing. -/
theorem loadWithoutMarkersIsAStructureError : Obligations.LoadWithoutMarkersIsAStructureError := by
  intro f buf s hf hmissing
  have hs : structureHolds buf = false := by
    rw [← Bool.not_eq_true, structureHolds_iff]
    rintro ⟨hlen, hsof, hsof', hend⟩
    rcases hmissing with h | h | h | h
    · omega
    · exact h hsof
    · exact h hsof'
    · exact h hend
  exact exec_load_structure (List.getElem?_eq_getElem hf) hs

/-- Settles O31: the last but one byte is not the sum, so the second check fails. -/
theorem loadWithWrongSumIsAChecksumError : Obligations.LoadWithWrongSumIsAChecksumError := by
  intro f buf s F k hF hlen hsof hsof' hend hk hsum
  have hs : structureHolds buf = true := (structureHolds_iff buf).2 ⟨hlen, List.head?_eq_getElem?.trans hsof, hsof', hend⟩
  have hne : bufferSum buf ≠ k := fun h => hsum (h ▸ bufferSum_toNat buf)
  have hc : checksumHolds buf = false := (checksumHolds_of_getElem? hk).trans (decide_eq_false hne)
  exact ⟨bufferSum buf, bufferSum_toNat buf, exec_load_checksum hF hs hc⟩

/-- Settles O32: both checks pass, with k the sum, and the length guard stops LOAD. -/
theorem loadOfMissingBytesIsALengthFault : Obligations.LoadOfMissingBytesIsALengthFault := by
  intro f buf s F k hF hlen hsof hsof' hend hk hsum hmissing
  have hs : structureHolds buf = true := (structureHolds_iff buf).2 ⟨hlen, List.head?_eq_getElem?.trans hsof, hsof', hend⟩
  obtain rfl : bufferSum buf = k := BitVec.eq_of_toNat_eq ((bufferSum_toNat buf).trans hsum.symm)
  have hc : checksumHolds buf = true := (checksumHolds_of_getElem? hk).trans (decide_eq_true rfl)
  exact exec_load_length hF hs hc (loadFields_eq_none hmissing)

end Sys2Proof.Machine
end

section
/-! Which steps answer a next state: the idle block's, every well-formed operation on an existing context, and no fault from a sound
state (60_exceptions R118, R126; 70_reset R138, R157). -/

namespace Sys2Proof.Machine

theorem issue_of_nil {s : State} (hp : s.pending = []) : issue s = .next s := by
  simp only [issue, hp]

/-- Settles O8: the idle step issues the next command, and there is none. -/
theorem idleBlockWaits : Obligations.IdleBlockWaits := fun _ hr hl hp =>
  (step_of_idle hr hl).trans (issue_of_nil hp)

/-- The data of a typed state have a length byte (10_state R16). -/
theorem State.dlen_le_of_typed {s : State} {f : Nat} {F : Frame} (h : s.typed = true) (hF : s.ctx[f]? = some F) :
    F.dlen ≤ 255 := by
  simp only [State.typed, Bool.and_eq_true] at h
  obtain ⟨⟨⟨_, hfits⟩, _⟩, _⟩ := h
  exact of_decide_eq_true (List.all_eq_true.1 hfits F (List.mem_of_getElem? hF))

/-- The context of a READ in progress exists in a sound state. -/
theorem State.lt_of_sound {s : State} {f : Nat} {v : Version} (h : s.sound = true) (hr : s.rx = .accumulating f v) :
    f < s.ctx.length := by
  simp only [State.sound, State.readerSound, hr, Bool.and_eq_true, decide_eq_true_eq] at h
  obtain ⟨_, _, _, hf⟩ := h
  exact hf

theorem exists_frame_of_inContext {i : Instr} {f : Nat} {s : State} (hi : i.context? = some f)
    (h : i.inContext s.ctx.length = true) : ∃ F, s.ctx[f]? = some F := by
  simp only [Instr.inContext, hi, decide_eq_true_eq] at h
  exact ⟨_, List.getElem?_eq_getElem h⟩

theorem assign_isNext {f : Nat} {s : State} (h : ∃ F, s.ctx[f]? = some F) (g : Frame → Frame) :
    ∃ t, assign f s g = .next t := by
  obtain ⟨F, hF⟩ := h
  exact ⟨_, assign_of_get hF⟩

/-- Well-formed operands pass the operation's own checks, and the data DUMP and WRITE lay out fit their length byte. -/
theorem exec_isNext {i : Instr} {s : State} (hs : s.typed = true) (hi : i.wellFormed = true)
    (hc : i.inContext s.ctx.length = true) : ∃ t, exec i s = .next t := by
  cases i with
  | csum | addrenc | addrdec | ctrlenc | ctrldec | datadec | structchk | reset => exact ⟨_, rfl⟩
  | csumchk buf => exact ⟨_, if_pos (of_decide_eq_true hi)⟩
  | dataenc d =>
    cases d with
    | none => exact ⟨_, rfl⟩
    | some d => exact ⟨_, if_pos (of_decide_eq_true hi)⟩
  | fnew | setaddr | clraddr | setctrl | clrdata | setpver => exact assign_isNext (exists_frame_of_inContext rfl hc) _
  | setdata f d =>
    obtain ⟨t, ht⟩ := assign_isNext (exists_frame_of_inContext rfl hc) fun F => { F with data := some d }
    exact ⟨t, (if_pos (of_decide_eq_true hi)).trans ht⟩
  | load | read =>
    obtain ⟨F, hF⟩ := exists_frame_of_inContext rfl hc
    exact ⟨_, withFrame_of_get hF⟩
  | dump f =>
    obtain ⟨F, hF⟩ := exists_frame_of_inContext rfl hc
    exact ⟨_, exec_dump hF (State.dlen_le_of_typed hs hF)⟩
  | write f wake =>
    obtain ⟨F, hF⟩ := exists_frame_of_inContext rfl hc
    exact ⟨_, exec_write hF (State.dlen_le_of_typed hs hF) wake⟩

/-- Of the step's ways only the end of a READ can fault, and in a sound state its context exists. -/
theorem step_ne_fault {s : State} (h : s.sound = true) (r : Fault) : step s ≠ .fault r := by
  rcases step_cases s with ⟨l, _, hreset⟩ |
    ⟨_, s', rfl, ⟨f, v, hr, hread⟩ | ⟨_, _, hwait⟩ | ⟨_, _, e, _, _, _, hrefused⟩ | ⟨_, _, i, _, _, _, hexec⟩⟩
  · rw [hreset]
    nofun
  · obtain ⟨t, ht⟩ := readStep_isNext (s := s.setResetLine (s.resetLine.drop 1)) (State.lt_of_sound h hr) v
    rw [hread, ht]
    nofun
  · rw [hwait]
    nofun
  · rw [hrefused]
    nofun
  · rw [hexec]
    exact exec_ne_fault i _ r

/-- Settles O57, from both halves. -/
theorem wellFormedOperationsComplete : Obligations.WellFormedOperationsComplete :=
  ⟨fun _ _ => exec_isNext, fun _ r h => step_ne_fault h r⟩

end Sys2Proof.Machine
end

section
/-! A READ that meets neither no-byte nor an end marker goes on (70_reset R152). -/

namespace Sys2Proof.Machine

theorem State.hasRoom_of_unbounded {s : State} (h : s.rxBufMax = none) (n : Nat) : s.hasRoom n := by
  intro k _ hmax
  cases h.symm.trans hmax

/-- Settles O44: an unbounded buffer has room for whatever is kept of the symbols, and of wake bytes alone nothing is kept. -/
theorem readNeverEndsWithoutAMarker : Obligations.ReadNeverEndsWithoutAMarker := by
  intro s f v l rest hr hl he hsrc hmax
  have hroom : s.hasRoom (keptBytes l).length := by
    rcases hmax with hunbounded | hwake
    · exact State.hasRoom_of_unbounded hunbounded _
    · rw [hwake]
      exact fun _ hk => absurd hk (Nat.not_lt_zero _)
  exact run_endless hr hl he hsrc hroom

end Sys2Proof.Machine
end

section
/-! The invariant of the machine (70_reset R157), clause by clause: one rule for each operation on the state, and from them that every
operation and every READ step keeps it. -/

namespace Sys2Proof.Machine

/-- The invariant `State.sound` as a proposition, each clause under its name. -/
structure State.Sound (s : State) : Prop where
  nonempty : 1 ≤ s.ctx.length
  fits : ∀ F ∈ s.ctx, F.dataFits = true
  status : s.statusErr.toNat ≤ 5
  bound : ∀ m, s.rxBufMax = some m → s.rxBuf.length ≤ m
  noWake : WAKE ∉ s.rxBuf
  reading : ∀ f v, s.rx = .accumulating f v → END ∉ s.rxBuf ∧ f < s.ctx.length

theorem all_bne_iff_not_mem {l : List Byte} {b : Byte} : l.all (· != b) = true ↔ b ∉ l := by
  rw [List.all_bne', Bool.not_eq_true', ← Bool.not_eq_true, List.contains_iff_mem]

theorem State.typed_iff (s : State) : s.typed = true ↔
    1 ≤ s.ctx.length ∧ (∀ F ∈ s.ctx, F.dataFits = true) ∧ s.statusErr.toNat ≤ 5 ∧
      ∀ m, s.rxBufMax = some m → s.rxBuf.length ≤ m := by
  simp only [State.typed, Bool.and_eq_true, decide_eq_true_eq, List.all_eq_true, and_assoc]
  cases s.rxBufMax <;> simp

theorem State.readerSound_iff (s : State) : s.readerSound = true ↔
    WAKE ∉ s.rxBuf ∧ ∀ f v, s.rx = .accumulating f v → END ∉ s.rxBuf ∧ f < s.ctx.length := by
  rw [State.readerSound, Bool.and_eq_true, all_bne_iff_not_mem]
  refine and_congr_right fun _ => ?_
  cases s.rx with
  | idle => exact iff_of_true rfl nofun
  | accumulating f v =>
    simp only [Bool.and_eq_true, all_bne_iff_not_mem, decide_eq_true_eq, RxState.accumulating.injEq]
    exact ⟨by rintro h _ _ ⟨rfl, rfl⟩; exact h, fun h => h f v ⟨rfl, rfl⟩⟩

theorem State.sound_iff (s : State) : s.sound = true ↔ s.Sound := by
  rw [State.sound, Bool.and_eq_true, State.typed_iff, State.readerSound_iff]
  exact ⟨fun ⟨⟨hne, hfits, herr, hmax⟩, hwake, hread⟩ => ⟨hne, hfits, herr, hmax, hwake, hread⟩,
    fun ⟨hne, hfits, herr, hmax, hwake, hread⟩ => ⟨⟨hne, hfits, herr, hmax⟩, hwake, hread⟩⟩

/-- The code of an outcome is one of 0 to 5 (60_exceptions R124). -/
theorem errorCode_toNat_le (e : OpError) : (errorCode e).toNat ≤ 5 := by
  cases e <;> simp [errorCode]

theorem loadFrame_dataFits {F : Frame} (h : F.dataFits = true) (acc : Byte) (buf : List Byte) :
    (loadFrame F acc buf).frame.dataFits = true := by
  rcases loadFrame_cases F acc buf with ⟨_, hl⟩ | ⟨_, _, hl⟩ | ⟨_, _, _, hl⟩ | ⟨_, _, fl, hfl, hl⟩ <;> rw [hl]
  · exact h
  · exact h
  · exact h
  · obtain ⟨_, _, n, _, _, _, _, _, _, _, hlen⟩ := loadFields_eq_some hfl
    have hdata : fl.data.length ≤ N_MAX := hlen.trans_le (Nat.le_of_lt_succ n.isLt)
    exact decide_eq_true hdata

namespace State.Sound

variable {s : State} (h : s.Sound)
include h

theorem setAcc (a : Byte) : (s.setAcc a).Sound := { h with }
theorem report (r : Result) : (s.report r).Sound := { h with }
theorem txWrite (out : List Byte) : (s.txWrite out).Sound := { h with }
theorem setPending (cs : List Command) : (s.setPending cs).Sound := { h with }
theorem setResetLine (l : List Bool) : (s.setResetLine l).Sound := { h with }
theorem takeSymbol : s.takeSymbol.Sound := { h with }

theorem setStatus {c : BitVec 3} (hc : c.toNat ≤ 5) : (s.setStatus c).Sound := { h with status := hc }

theorem finish : ∀ o : Option OpError, (s.finish o).Sound
  | none => (h.setStatus (c := okCode) (by decide)).report _
  | some e => (h.setStatus (errorCode_toNat_le e)).report _

theorem setFrame {F : Frame} (hF : F.dataFits = true) (f : Nat) : (s.setFrame f F).Sound :=
  have hlen : (s.setFrame f F).ctx.length = s.ctx.length := List.length_set
  { h with
    nonempty := hlen ▸ h.nonempty
    fits := fun G hG => (List.mem_or_eq_of_mem_set hG).elim (h.fits G) fun hGF => hGF ▸ hF
    reading := fun g v hr => hlen ▸ h.reading g v hr }

/-- An idle reader's buffer may hold anything but wake bytes. -/
theorem setRx_idle : (s.setRx .idle).Sound := { h with reading := nofun }

/-- READ's start (42_stream R105). -/
theorem startRead {f : Nat} (hf : f < s.ctx.length) (v : Version) : ((s.setRxBuf []).setRx (.accumulating f v)).Sound :=
  { h with
    bound := fun m _ => Nat.zero_le m
    noWake := List.not_mem_nil
    reading := fun _ _ hr => by cases hr; exact ⟨List.not_mem_nil, hf⟩ }

/-- The byte a READ stores (42_stream R106): an end marker only once the READ has ended. -/
theorem append {b : Byte} (hfull : s.rxFull = false) (hw : b ≠ WAKE) (he : b ≠ END ∨ s.rx = .idle) :
    (s.setRxBuf (s.rxBuf ++ [b])).Sound :=
  { h with
    bound := by
      intro m hm
      have hle := h.bound m hm
      have hne : s.rxBuf.length ≠ m := by
        rintro rfl
        rw [s.rxFull_iff.2 hm] at hfull
        cases hfull
      simp only [State.setRxBuf_rxBuf, List.length_append, List.length_singleton]
      omega
    noWake := by simpa using ⟨h.noWake, hw.symm⟩
    reading := by
      intro f v hr
      obtain ⟨hend, hf⟩ := h.reading f v hr
      rcases he with he | hidle
      · exact ⟨by simpa using ⟨hend, he.symm⟩, hf⟩
      · cases hidle.symm.trans hr }

theorem resetBlock : s.resetBlock.Sound where
  nonempty := (State.resetBlock_length s).symm ▸ h.nonempty
  fits := by
    intro F hF
    rw [resetBlock_ctx_eq_replicate] at hF
    rw [List.eq_of_mem_replicate hF]
    rfl
  status := Nat.zero_le 5
  bound := fun m _ => Nat.zero_le m
  noWake := List.not_mem_nil
  reading := nofun

theorem dataFits_of_get {f : Nat} {F : Frame} (hF : s.ctx[f]? = some F) : F.dataFits = true :=
  h.fits F (List.mem_of_getElem? hF)

end State.Sound

theorem exec_sound {i : Instr} {s t : State} (hs : s.Sound) (h : exec i s = .next t) : t.Sound := by
  rcases exec_next h with ⟨_, _, a, v, rfl⟩ | ⟨_, _, f, F, g, hF, _, rfl, _, hfits⟩ | ⟨f, F, buf, _, hF, rfl⟩ |
    ⟨f, F, v, _, hF, rfl⟩ | ⟨f, F, w, _, _, rfl⟩ | ⟨_, rfl⟩
  · exact (hs.setAcc a).report _
  · exact (hs.setFrame (hfits (hs.dataFits_of_get hF)) f).report _
  · exact ((hs.setFrame (loadFrame_dataFits (hs.dataFits_of_get hF) s.acc buf) f).setAcc _).finish _
  · exact hs.startRead (List.getElem?_eq_some_iff.1 hF).1 v
  · exact ((hs.setAcc _).txWrite _).report _
  · exact hs.resetBlock.report _

/-- The end of a READ (42_stream R106, R110); its buffer may hold the end marker, so only the state with the READ ended is asked to be
sound. -/
theorem finishRead_sound {f : Nat} {v : Version} {s t : State} (hs : (s.setRx .idle).Sound) (h : finishRead f v s = .next t) :
    t.Sound := by
  rcases finishRead_cases f v s with ⟨e, _, hf⟩ | ⟨_, _, hf⟩ | ⟨_, _, hf⟩ <;> cases hf.symm.trans h
  · exact (hs.setAcc _).finish (some e)
  · exact ((hs.setAcc _).setFrame (loadFrame_dataFits rfl _ _) f).finish none

theorem readByte_sound {f : Nat} {v : Version} {b : Byte} {s t : State} (hs : s.Sound) (h : readByte f v b s = .next t) :
    t.Sound := by
  rcases readByte_cases f v b s with ⟨_, hb⟩ | ⟨_, _, hb⟩ | ⟨hw, hfull, he, hb⟩ | ⟨hw, hfull, _, hb⟩
  · cases hb.symm.trans h
    exact hs
  · cases hb.symm.trans h
    exact hs.setRx_idle.finish (some .overflowFault)
  · cases hb.symm.trans h
    exact hs.append hfull hw (.inl he)
  · have hended : ((s.setRx .idle).setRxBuf (s.rxBuf ++ [b])).Sound := hs.setRx_idle.append hfull hw (.inr rfl)
    exact finishRead_sound (s := s.setRxBuf (s.rxBuf ++ [b])) hended (hb.symm.trans h)

theorem readStep_sound {f : Nat} {v : Version} {s t : State} (hs : s.Sound) (h : readStep f v s = .next t) : t.Sound := by
  unfold readStep at h
  cases hsym : s.nextSymbol with
  | noByte =>
    rw [hsym] at h
    cases h
    exact hs.takeSymbol.setRx_idle.finish (some .timeoutError)
  | byte b =>
    rw [hsym] at h
    exact readByte_sound hs.takeSymbol h

theorem step_sound {s t : State} (hs : s.Sound) (h : step s = .next t) : t.Sound := by
  rcases step_cases s with ⟨l, _, hreset⟩ |
    ⟨_, s', rfl, ⟨f, v, _, hread⟩ | ⟨_, _, hwait⟩ | ⟨_, _, _, _, _, _, hrefused⟩ | ⟨_, cs, i, _, _, _, hexec⟩⟩
  · cases hreset.symm.trans h
    exact (hs.setResetLine l).resetBlock
  · exact readStep_sound (hs.setResetLine _) (hread.symm.trans h)
  · cases hwait.symm.trans h
    exact hs.setResetLine _
  · cases hrefused.symm.trans h
  · exact exec_sound ((hs.setResetLine _).setPending cs) (hexec.symm.trans h)

/-- Settles O52: each way a step can go keeps every clause of the invariant. -/
theorem everyStepKeepsTheStateSound : Obligations.EveryStepKeepsTheStateSound := fun s t hs h =>
  t.sound_iff.2 (step_sound (s.sound_iff.1 hs) h)

end Sys2Proof.Machine
end

section
/-! Noninterference of `ACC` and `STATUS.ERR` (70_reset R157): a step from a state with other values in them goes the same way. -/

namespace Sys2Proof.Machine

/-- From s and from s with a in `ACC` and e in `STATUS.ERR`, the next states t and t' agree but for these two registers, each of
which was written alike or left as it was. -/
def AgreesButAccStatus (s : State) (a : Byte) (e : BitVec 3) (t t' : State) : Prop :=
  t' = { t with acc := t'.acc, statusErr := t'.statusErr } ∧ (t'.acc = t.acc ∨ (t'.acc = a ∧ t.acc = s.acc)) ∧
  (t'.statusErr = t.statusErr ∨ (t'.statusErr = e ∧ t.statusErr = s.statusErr))

/-- When the outcome o from s is a next state, so is the outcome o' from s with a in `ACC` and e in `STATUS.ERR`, and they agree. -/
def IgnoresAccStatus (s : State) (a : Byte) (e : BitVec 3) (o o' : Stepped) : Prop :=
  ∀ t, o = .next t → ∃ t', o' = .next t' ∧ AgreesButAccStatus s a e t t'

/-- LOAD's frame and outcome do not depend on `ACC`, which it writes alike or leaves alone (10_state R33). -/
theorem loadFrame_ignores_acc (F : Frame) (acc a : Byte) (buf : List Byte) :
    ∃ x, loadFrame F a buf = { loadFrame F acc buf with acc := x } ∧
      (x = (loadFrame F acc buf).acc ∨ (x = a ∧ (loadFrame F acc buf).acc = acc)) := by
  rcases loadFrame_cases F acc buf with ⟨hs, hl⟩ | ⟨hs, hc, hl⟩ | ⟨hs, hc, hf, hl⟩ | ⟨hs, hc, fl, hf, hl⟩ <;> rw [hl]
  · exact ⟨a, loadFrame_structure hs, .inr ⟨rfl, rfl⟩⟩
  · exact ⟨_, loadFrame_checksum hs hc, .inl rfl⟩
  · exact ⟨_, loadFrame_length hs hc hf, .inl rfl⟩
  · exact ⟨_, loadFrame_ok hs hc hf, .inl rfl⟩

section
variable {s : State} {a : Byte} {e : BitVec 3}

theorem IgnoresAccStatus.next {t t' : State} (h : AgreesButAccStatus s a e t t') : IgnoresAccStatus s a e (.next t) (.next t') := by
  intro _ ht
  cases ht
  exact ⟨t', rfl, h⟩

theorem IgnoresAccStatus.refused (r : Refusal) (o' : Stepped) : IgnoresAccStatus s a e (.refused r) o' := nofun

theorem IgnoresAccStatus.fault (r : Fault) (o' : Stepped) : IgnoresAccStatus s a e (.fault r) o' := nofun

/-- A step that writes neither register. -/
theorem ignores_leaving_both {t : State} (hacc : t.acc = s.acc) (herr : t.statusErr = s.statusErr) :
    IgnoresAccStatus s a e (.next t) (.next ((t.setAcc a).setStatus e)) :=
  .next ⟨rfl, .inr ⟨rfl, hacc⟩, .inr ⟨rfl, herr⟩⟩

/-- A step that writes `ACC` alone. -/
theorem ignores_leaving_status {t : State} (herr : t.statusErr = s.statusErr) :
    IgnoresAccStatus s a e (.next t) (.next (t.setStatus e)) :=
  .next ⟨rfl, .inl rfl, .inr ⟨rfl, herr⟩⟩

/-- The end of LOAD or READ writes `STATUS.ERR`. -/
theorem ignores_finish {t : State} {x : Byte} (hx : x = t.acc ∨ (x = a ∧ t.acc = s.acc)) (o : Option OpError) :
    IgnoresAccStatus s a e (.next (t.finish o)) (.next (((t.setAcc x).setStatus e).finish o)) := by
  cases o <;> exact .next ⟨rfl, hx, .inl rfl⟩

variable (s a e)

theorem withFrame_ignores {f : Nat} {k k' : Frame → Stepped} (hk : ∀ F, IgnoresAccStatus s a e (k F) (k' F)) :
    IgnoresAccStatus s a e (withFrame f s k) (withFrame f ((s.setAcc a).setStatus e) k') := by
  intro t h
  obtain ⟨F, hF, hnext⟩ := withFrame_next h
  obtain ⟨t', ht', hagree⟩ := hk F t hnext
  exact ⟨t', (withFrame_of_get hF).trans ht', hagree⟩

theorem assign_ignores (f : Nat) (g : Frame → Frame) :
    IgnoresAccStatus s a e (assign f s g) (assign f ((s.setAcc a).setStatus e) g) :=
  withFrame_ignores s a e fun F => ignores_leaving_both (t := (s.setFrame f (g F)).answer .unit) rfl rfl

/-- DUMP and WRITE leave the checksum in `ACC`. -/
theorem withDump_ignores (f : Nat) {k : State → List Byte → State} (hk : ∀ t out, k (t.setStatus e) out = (k t out).setStatus e)
    (herr : ∀ t out, (k t out).statusErr = t.statusErr) :
    IgnoresAccStatus s a e (withDump f s fun t out => .next (k t out))
      (withDump f ((s.setAcc a).setStatus e) fun t out => .next (k t out)) :=
  withFrame_ignores s a e fun F => by
    cases F.dataFits with
    | false => exact .refused _ _
    | true =>
      have hleft := ignores_leaving_status (s := s) (a := a) (e := e) (herr (s.setAcc (sum8 (dumpBody F))) (dumpFrame F))
      rw [← hk] at hleft
      exact hleft

theorem execLoad_ignores (f : Nat) (buf : List Byte) :
    IgnoresAccStatus s a e (execLoad f buf s) (execLoad f buf ((s.setAcc a).setStatus e)) :=
  withFrame_ignores s a e fun F => by
    obtain ⟨x, hload, hx⟩ := loadFrame_ignores_acc F s.acc a buf
    simp only [State.setStatus_acc, State.setAcc_acc, hload]
    exact ignores_finish (t := (s.setFrame f (loadFrame F s.acc buf).frame).setAcc (loadFrame F s.acc buf).acc) hx _

theorem execSetdata_ignores (f : Nat) (d : List Byte) :
    IgnoresAccStatus s a e (execSetdata f d s) (execSetdata f d ((s.setAcc a).setStatus e)) := by
  unfold execSetdata
  split
  · exact assign_ignores s a e f _
  · exact .refused _ _

theorem exec_codec_ignores {i : Instr} (hi : i.isCodec = true) :
    IgnoresAccStatus s a e (exec i s) (exec i ((s.setAcc a).setStatus e)) := by
  rcases exec_codec hi with ⟨r, h⟩ | ⟨v, h⟩ | ⟨_, x, v, h⟩ <;> rw [h, h]
  · exact .refused r _
  · exact ignores_leaving_both (t := s.answer v) rfl rfl
  · exact ignores_leaving_status (t := (s.setAcc x).answer v) rfl

/-- What the operations do does not depend on `ACC` or `STATUS.ERR`. -/
theorem exec_ignores (i : Instr) : IgnoresAccStatus s a e (exec i s) (exec i ((s.setAcc a).setStatus e)) := by
  cases i with
  | csum | csumchk | addrenc | addrdec | ctrlenc | ctrldec | dataenc | datadec | structchk => exact exec_codec_ignores s a e rfl
  | fnew f | setaddr f | clraddr f | setctrl f | clrdata f | setpver f => exact assign_ignores s a e f _
  | setdata f d => exact execSetdata_ignores s a e f d
  | load f buf => exact execLoad_ignores s a e f buf
  | dump f => exact withDump_ignores s a e f (k := fun t out => t.answer (.bytes out)) (fun _ _ => rfl) fun _ _ => rfl
  | read f v =>
    exact withFrame_ignores s a e fun _ =>
      ignores_leaving_both (t := (s.setRxBuf []).setRx (.accumulating f v)) rfl rfl
  | write f wake =>
    exact withDump_ignores s a e f (k := fun t out => (t.txWrite (preamble wake ++ out)).answer .unit) (fun _ _ => rfl)
      fun _ _ => rfl
  | reset => exact .next ⟨rfl, .inl rfl, .inl rfl⟩

theorem finishRead_ignores (f : Nat) (v : Version) :
    IgnoresAccStatus s a e (finishRead f v s) (finishRead f v ((s.setAcc a).setStatus e)) := by
  obtain ⟨x, hload, hx⟩ := loadFrame_ignores_acc (freshFrame s.ctrlDefault v) s.acc a s.rxBuf
  unfold finishRead
  simp only [State.setStatus_ctrlDefault, State.setStatus_acc, State.setStatus_rxBuf, State.setStatus_ctx,
    State.setAcc_ctrlDefault, State.setAcc_acc, State.setAcc_rxBuf, State.setAcc_ctx, hload]
  generalize loadFrame (freshFrame s.ctrlDefault v) s.acc s.rxBuf = r at hx
  cases r.error with
  | some err => exact ignores_finish (t := (s.setRx .idle).setAcc r.acc) hx (some err)
  | none =>
    by_cases hf : f < s.ctx.length
    · simp only [if_pos hf]
      exact ignores_finish (t := ((s.setRx .idle).setAcc r.acc).setFrame f r.frame) hx none
    · simp only [if_neg hf]
      exact .fault _ _

theorem readByte_ignores (f : Nat) (v : Version) (b : Byte) :
    IgnoresAccStatus s a e (readByte f v b s) (readByte f v b ((s.setAcc a).setStatus e)) := by
  have hfull : ((s.setAcc a).setStatus e).rxFull = s.rxFull := rfl
  unfold readByte
  rw [hfull]
  split_ifs
  · exact ignores_leaving_both rfl rfl
  · exact ignores_finish (t := s.setRx .idle) (x := a) (.inr ⟨rfl, rfl⟩) (some .overflowFault)
  · exact finishRead_ignores (s.setRxBuf (s.rxBuf ++ [b])) a e f v
  · exact ignores_leaving_both (t := s.setRxBuf (s.rxBuf ++ [b])) rfl rfl

theorem readStep_ignores (f : Nat) (v : Version) :
    IgnoresAccStatus s a e (readStep f v s) (readStep f v ((s.setAcc a).setStatus e)) := by
  have hsym : ((s.setAcc a).setStatus e).nextSymbol = s.nextSymbol := rfl
  unfold readStep
  rw [hsym]
  cases s.nextSymbol with
  | noByte => exact ignores_finish (t := s.takeSymbol.setRx .idle) (x := a) (.inr ⟨rfl, rfl⟩) (some .timeoutError)
  | byte b => exact readByte_ignores s.takeSymbol a e f v b

theorem issue_ignores : IgnoresAccStatus s a e (issue s) (issue ((s.setAcc a).setStatus e)) := by
  cases hp : s.pending with
  | nil =>
    rw [issue_of_nil hp, issue_of_nil (s := (s.setAcc a).setStatus e) hp]
    exact ignores_leaving_both rfl rfl
  | cons c cs =>
    cases hd : decode c with
    | ok i =>
      rw [issue_of_decode hp hd, issue_of_decode (s := (s.setAcc a).setStatus e) hp hd]
      exact exec_ignores (s.setPending cs) a e i
    | error r =>
      rw [issue_of_decode_error hp hd]
      exact .refused _ _

theorem proceed_ignores : IgnoresAccStatus s a e (proceed s) (proceed ((s.setAcc a).setStatus e)) := by
  unfold proceed
  simp only [State.setStatus_rx, State.setAcc_rx]
  cases s.rx with
  | accumulating f v => exact readStep_ignores s a e f v
  | idle => exact issue_ignores s a e

/-- What a step does does not depend on `ACC` or `STATUS.ERR`; the reset input clears both. -/
theorem step_ignores : IgnoresAccStatus s a e (step s) (step ((s.setAcc a).setStatus e)) := by
  by_cases hl : s.resetLine.head? = some true
  · obtain ⟨l, hl⟩ := List.head?_eq_some_iff.1 hl
    rw [step_of_resetLine hl, step_of_resetLine (s := (s.setAcc a).setStatus e) hl]
    exact .next ⟨rfl, .inl rfl, .inl rfl⟩
  · rw [step_eq_proceed hl, step_eq_proceed (s := (s.setAcc a).setStatus e) hl]
    exact proceed_ignores (s.setResetLine s.resetLine.tail) a e

end

/-- Settles O58: LOAD into a frame is where an operation or a READ takes up `ACC`, and it reads it only to leave it alone. -/
theorem resultsIgnoreAccAndStatus : Obligations.ResultsIgnoreAccAndStatus :=
  ⟨fun i s t a e h => exec_ignores s a e i t h, fun s t a e h => step_ignores s a e t h⟩

end Sys2Proof.Machine
end
